-- ==== Sys2Proof/Word.lean ====
section
/-! DEFINITION. The word widths the spec names (30_encoding R80). -/

namespace Sys2Proof

/-- A slot, a character, an address or a data byte: 8 bits (00_scope R7, R8). -/
abbrev Byte := BitVec 8

/-- A wire word, WIRE16 (30_encoding R80). -/
abbrev Wire := BitVec 16

/-- A host command word, CMD32, and the STATUS word (30_encoding R80). -/
abbrev Word := BitVec 32

end Sys2Proof
end

