-- ==== Sys2Proof/Syntax.lean ====
section
/-! DEFINITION. The instructions: one constructor per row of spec/opcode_table.json, and the encoded
unit each row is carried in (30_encoding R80). -/

namespace Sys2Proof

/-- Every row of the opcode table: seven host commands (30_encoding R82), fourteen named wire words
(R87) and twenty-two character rows (R90 to R93). -/
inductive Instr where
  /-- ENC_CLEAR (41_encoder R140). -/
  | encClear
  /-- ENC_CHAR C (41_encoder R141). -/
  | encChar (c : Byte)
  /-- INIT N, M, K: digitCount, decodeMode, intensityLevel (40_protocol R114). -/
  | init (n m k : Byte)
  /-- SHIFT16 V (40_protocol R111). -/
  | shift16 (v : Wire)
  /-- TXN A, D: address, data (40_protocol R113). -/
  | txn (a d : Byte)
  /-- FRAME_OUT (40_protocol R116). -/
  | frameOut
  /-- HALT (42_control R160). -/
  | halt
  /-- Wire word to address 0x00, No-Op (30_encoding R87). -/
  | wireNoop (d : Byte)
  /-- Wire word to address 0x01 (30_encoding R87). -/
  | wireDigit0 (d : Byte)
  /-- Wire word to address 0x02 (30_encoding R87). -/
  | wireDigit1 (d : Byte)
  /-- Wire word to address 0x03 (30_encoding R87). -/
  | wireDigit2 (d : Byte)
  /-- Wire word to address 0x04 (30_encoding R87). -/
  | wireDigit3 (d : Byte)
  /-- Wire word to address 0x05 (30_encoding R87). -/
  | wireDigit4 (d : Byte)
  /-- Wire word to address 0x06 (30_encoding R87). -/
  | wireDigit5 (d : Byte)
  /-- Wire word to address 0x07 (30_encoding R87). -/
  | wireDigit6 (d : Byte)
  /-- Wire word to address 0x08 (30_encoding R87). -/
  | wireDigit7 (d : Byte)
  /-- Wire word to address 0x09, Decode-Mode (30_encoding R87). -/
  | wireDecodeMode (d : Byte)
  /-- Wire word to address 0x0A, Intensity (30_encoding R87). -/
  | wireIntensity (d : Byte)
  /-- Wire word to address 0x0B, Scan-Limit (30_encoding R87). -/
  | wireScanLimit (d : Byte)
  /-- Wire word to address 0x0C, Shutdown (30_encoding R87). -/
  | wireShutdown (d : Byte)
  /-- Wire word to address 0x0F, Display-Test (30_encoding R87). -/
  | wireDisplayTest (d : Byte)
  /-- ' ', code 15 (30_encoding R91). -/
  | charSpace
  /-- '-', code 10 (30_encoding R91). -/
  | charMinus
  /-- '.', the decimal point (30_encoding R92). -/
  | charDot
  /-- '0' (30_encoding R90). -/
  | char0
  /-- '1' (30_encoding R90). -/
  | char1
  /-- '2' (30_encoding R90). -/
  | char2
  /-- '3' (30_encoding R90). -/
  | char3
  /-- '4' (30_encoding R90). -/
  | char4
  /-- '5' (30_encoding R90). -/
  | char5
  /-- '6' (30_encoding R90). -/
  | char6
  /-- '7' (30_encoding R90). -/
  | char7
  /-- '8' (30_encoding R90). -/
  | char8
  /-- '9' (30_encoding R90). -/
  | char9
  /-- 'E', code 11 (30_encoding R91). -/
  | charE
  /-- 'H', code 12 (30_encoding R91). -/
  | charH
  /-- 'L', code 13 (30_encoding R91). -/
  | charL
  /-- 'P', code 14 (30_encoding R91). -/
  | charP
  /-- 'e', code 11 (30_encoding R91). -/
  | charLowerE
  /-- 'h', code 12 (30_encoding R91). -/
  | charLowerH
  /-- 'l', code 13 (30_encoding R91). -/
  | charLowerL
  /-- 'p', code 14 (30_encoding R91). -/
  | charLowerP
  /-- The default row: any other character (30_encoding R93). -/
  | charInvalid (c : Byte)
  deriving DecidableEq, Repr

/-- An encoded unit: a host command word, a wire word or a character (30_encoding R80). -/
inductive Packet where
  /-- A CMD32 word, on the CMD port. -/
  | cmd32 (w : Word)
  /-- A WIRE16 word, in the receiver's shift register. -/
  | wire16 (w : Wire)
  /-- A CHAR8 character, in ENC_CHAR's C field. -/
  | char8 (c : Byte)
  deriving DecidableEq, Repr

end Sys2Proof
end

