-- ==== Sys2Proof/WellFormed.lean ====
section
/-! DEFINITION. Which instruction terms stand for an encoding. Operand widths are types, so the one
check is that the default character row holds a character no other row selects (30_encoding R93). -/

namespace Sys2Proof

/-- The valid set, 21 characters: the twenty of 30_encoding R90 and R91, and '.' (R92). -/
def validChars : List Byte :=
  [0x30, 0x31, 0x32, 0x33, 0x34, 0x35, 0x36, 0x37, 0x38, 0x39] ++
  [0x2D, 0x45, 0x65, 0x48, 0x68, 0x4C, 0x6C, 0x50, 0x70, 0x20] ++ [0x2E]

/-- An instruction that some encoding stands for. INIT's N and K are not checked here: an INIT word with
N > 7 or K > 15 is a legal encoding whose command faults (40_protocol R114). -/
def Instr.WF : Instr → Bool
  | .encClear => true
  | .encChar _ => true
  | .init _ _ _ => true
  | .shift16 _ => true
  | .txn _ _ => true
  | .frameOut => true
  | .halt => true
  | .wireNoop _ => true
  | .wireDigit0 _ => true
  | .wireDigit1 _ => true
  | .wireDigit2 _ => true
  | .wireDigit3 _ => true
  | .wireDigit4 _ => true
  | .wireDigit5 _ => true
  | .wireDigit6 _ => true
  | .wireDigit7 _ => true
  | .wireDecodeMode _ => true
  | .wireIntensity _ => true
  | .wireScanLimit _ => true
  | .wireShutdown _ => true
  | .wireDisplayTest _ => true
  | .charSpace => true
  | .charMinus => true
  | .charDot => true
  | .char0 => true
  | .char1 => true
  | .char2 => true
  | .char3 => true
  | .char4 => true
  | .char5 => true
  | .char6 => true
  | .char7 => true
  | .char8 => true
  | .char9 => true
  | .charE => true
  | .charH => true
  | .charL => true
  | .charP => true
  | .charLowerE => true
  | .charLowerH => true
  | .charLowerL => true
  | .charLowerP => true
  | .charInvalid c => !validChars.contains c

end Sys2Proof
end

