-- ==== Sys2Proof/Decode.lean ====
section
/-! DEFINITION. Decoding of the three encoded units and, after it, the encoder, both written from the
encoding tables of 30_encoding (R82 to R84, R87, R90 to R93). -/

namespace Sys2Proof

/-- Why a unit is no row of the opcode table. -/
inductive DecodeError where
  /-- OP is 0x0 or 0x8..0xF (30_encoding R97): the block raises ILLEGAL_CMD. -/
  | unknownOp (op : BitVec 4)
  /-- OP is known and a reserved bit is set (30_encoding R83): the block raises ILLEGAL_CMD. -/
  | reservedBits (w : Word)
  /-- The address byte has no name (30_encoding R87): no row; the receiver latches it (20_memory R68). -/
  | unnamedAddress (a : Byte)
  deriving DecidableEq, Repr

/-- The `len` bits of `w` from bit `lo` up, the spec's `w[lo+len-1 : lo]` (00_scope R10). -/
abbrev bits {n : Nat} (lo len : Nat) (w : BitVec n) : BitVec len := w.extractLsb' lo len

/-- An instruction whose reserved bits `r` must be 0 (30_encoding R83). -/
def withReserved {n : Nat} (w : Word) (r : BitVec n) (i : Instr) : Except DecodeError Instr :=
  if r = 0 then .ok i else .error (.reservedBits w)

/-- A command word, by OP (30_encoding R81, R82), its reserved bits (R83) and its operands (R84). -/
def decodeCmd (w : Word) : Except DecodeError Instr :=
  match (bits 28 4 w : BitVec 4).toNat with
  | 1 => withReserved w (bits 0 28 w) .encClear
  | 2 => withReserved w (bits 8 20 w) (.encChar (bits 0 8 w))
  | 3 => withReserved w (bits 24 4 w) (.init (bits 16 8 w) (bits 8 8 w) (bits 0 8 w))
  | 4 => withReserved w (bits 16 12 w) (.shift16 (bits 0 16 w))
  | 5 => withReserved w (bits 16 12 w) (.txn (bits 8 8 w) (bits 0 8 w))
  | 6 => withReserved w (bits 0 28 w) .frameOut
  | 7 => withReserved w (bits 0 28 w) .halt
  | _ => .error (.unknownOp (bits 28 4 w))

/-- A wire word with address `a` and data `d`, by the address (30_encoding R87). -/
def decodeWireFields (a d : Byte) : Except DecodeError Instr :=
  match a.toNat with
  | 0x00 => .ok (.wireNoop d)
  | 0x01 => .ok (.wireDigit0 d)
  | 0x02 => .ok (.wireDigit1 d)
  | 0x03 => .ok (.wireDigit2 d)
  | 0x04 => .ok (.wireDigit3 d)
  | 0x05 => .ok (.wireDigit4 d)
  | 0x06 => .ok (.wireDigit5 d)
  | 0x07 => .ok (.wireDigit6 d)
  | 0x08 => .ok (.wireDigit7 d)
  | 0x09 => .ok (.wireDecodeMode d)
  | 0x0A => .ok (.wireIntensity d)
  | 0x0B => .ok (.wireScanLimit d)
  | 0x0C => .ok (.wireShutdown d)
  | 0x0F => .ok (.wireDisplayTest d)
  | _ => .error (.unnamedAddress a)

/-- A wire word (30_encoding R85, R87). -/
def decodeWire (w : Wire) : Except DecodeError Instr := decodeWireFields (bits 8 8 w) (bits 0 8 w)

/-- A character (30_encoding R90 to R93); every character is some row. -/
def decodeChar (c : Byte) : Instr :=
  match c.toNat with
  | 0x20 => .charSpace
  | 0x2D => .charMinus
  | 0x2E => .charDot
  | 0x30 => .char0
  | 0x31 => .char1
  | 0x32 => .char2
  | 0x33 => .char3
  | 0x34 => .char4
  | 0x35 => .char5
  | 0x36 => .char6
  | 0x37 => .char7
  | 0x38 => .char8
  | 0x39 => .char9
  | 0x45 => .charE
  | 0x48 => .charH
  | 0x4C => .charL
  | 0x50 => .charP
  | 0x65 => .charLowerE
  | 0x68 => .charLowerH
  | 0x6C => .charLowerL
  | 0x70 => .charLowerP
  | _ => .charInvalid c

/-- The decoder, total on every unit (30_encoding R97, R98). -/
def decode : Packet → Except DecodeError Instr
  | .cmd32 w => decodeCmd w
  | .wire16 w => decodeWire w
  | .char8 c => .ok (decodeChar c)

/-- The wire word `(address << 8) | data` (30_encoding R85). -/
def wireWord (a d : Byte) : Wire := a ++ d

/-- The encoding of an instruction: OP and operand area from 30_encoding R82 and R84, address bytes from
R87, character codes from R90 to R92. -/
def encode : Instr → Packet
  | .encClear => .cmd32 0x10000000#32
  | .encChar c => .cmd32 (0x200000#24 ++ c)
  | .init n m k => .cmd32 (0x30#8 ++ (n ++ (m ++ k)))
  | .shift16 v => .cmd32 (0x4000#16 ++ v)
  | .txn a d => .cmd32 (0x5000#16 ++ (a ++ d))
  | .frameOut => .cmd32 0x60000000#32
  | .halt => .cmd32 0x70000000#32
  | .wireNoop d => .wire16 (wireWord 0x00 d)
  | .wireDigit0 d => .wire16 (wireWord 0x01 d)
  | .wireDigit1 d => .wire16 (wireWord 0x02 d)
  | .wireDigit2 d => .wire16 (wireWord 0x03 d)
  | .wireDigit3 d => .wire16 (wireWord 0x04 d)
  | .wireDigit4 d => .wire16 (wireWord 0x05 d)
  | .wireDigit5 d => .wire16 (wireWord 0x06 d)
  | .wireDigit6 d => .wire16 (wireWord 0x07 d)
  | .wireDigit7 d => .wire16 (wireWord 0x08 d)
  | .wireDecodeMode d => .wire16 (wireWord 0x09 d)
  | .wireIntensity d => .wire16 (wireWord 0x0A d)
  | .wireScanLimit d => .wire16 (wireWord 0x0B d)
  | .wireShutdown d => .wire16 (wireWord 0x0C d)
  | .wireDisplayTest d => .wire16 (wireWord 0x0F d)
  | .charSpace => .char8 0x20
  | .charMinus => .char8 0x2D
  | .charDot => .char8 0x2E
  | .char0 => .char8 0x30
  | .char1 => .char8 0x31
  | .char2 => .char8 0x32
  | .char3 => .char8 0x33
  | .char4 => .char8 0x34
  | .char5 => .char8 0x35
  | .char6 => .char8 0x36
  | .char7 => .char8 0x37
  | .char8 => .char8 0x38
  | .char9 => .char8 0x39
  | .charE => .char8 0x45
  | .charH => .char8 0x48
  | .charL => .char8 0x4C
  | .charP => .char8 0x50
  | .charLowerE => .char8 0x65
  | .charLowerH => .char8 0x68
  | .charLowerL => .char8 0x6C
  | .charLowerP => .char8 0x70
  | .charInvalid c => .char8 c

/-- The unit whose `nbits` bits are `w`, numbered as spec/opcode_table.json numbers them. Every unit of
this hardware is one whole value of its width, so no byte order enters (20_memory R55, 30_encoding R98). -/
def packetOf (nbits w : Nat) : Option Packet :=
  match nbits with
  | 8 => some (.char8 (BitVec.ofNat 8 w))
  | 16 => some (.wire16 (BitVec.ofNat 16 w))
  | 32 => some (.cmd32 (BitVec.ofNat 32 w))
  | _ => none

/-- The instruction the decoder reads from `nbits` bits `w`; none where it rejects them. -/
def decodeTableWord (nbits w : Nat) : Option Instr :=
  match packetOf nbits w with
  | some p => (decode p).toOption
  | none => none

end Sys2Proof
end

