-- ==== Sys2Proof/Config.lean ====
section
/-! DEFINITION. The parameters the spec leaves OPEN (00_scope R9) and the model's free values.
None has a body: a statement about one holds whatever its value is. -/

namespace Sys2Proof.Config

/-- EXIT_CFG_DIGITCOUNT, an OPEN parameter, a number below 256 (00_scope R9, 60_exceptions R172).
DESIGN CHOICE: an uninterpreted constant; safe (log 5). -/
opaque exitCfgDigitcount : Byte

/-- EXIT_CFG_INTENSITY, an OPEN parameter, a number below 256 (00_scope R9, 60_exceptions R172).
DESIGN CHOICE: an uninterpreted constant; safe (log 5). -/
opaque exitCfgIntensity : Byte

/-- LV at power-up, by line index (10_state R39, R40: "unspecified: a draw").
DESIGN CHOICE: a free value; safe (log 1). -/
opaque powerUpLevel : Nat → Bool

/-- CFG_N, the digitCount a canonical run passes to INIT (00_scope R9). DESIGN CHOICE: uninterpreted; safe (log 6). -/
opaque cfgN : Byte

/-- CFG_M, the decodeMode a canonical run passes to INIT (00_scope R9). DESIGN CHOICE: uninterpreted; safe (log 6). -/
opaque cfgM : Byte

/-- CFG_K, the intensityLevel a canonical run passes to INIT (00_scope R9). DESIGN CHOICE: uninterpreted; safe (log 6). -/
opaque cfgK : Byte

/-- PIN_DATA, PIN_CLK and PIN_LOAD by line index; no rule reads them (00_scope R9).
DESIGN CHOICE: uninterpreted; safe (log 6). -/
opaque pin : Nat → Nat

/-- T_LINE_MIN (00_scope R9, 70_reset R204); the model has no time and reads it nowhere.
DESIGN CHOICE: uninterpreted; unsafe on a platform that does not meet it (log 7). -/
opaque tLineMin : Nat

end Sys2Proof.Config
end

