-- ==== Sys2Proof/Machine/State.lean ====
section
/-! DEFINITION. The state: all the spec gives the block (10_state), its ports and observation, and the
reference receiver (20_memory R62), as plain data. -/

namespace Sys2Proof.Machine

/-- The three lines (00_scope R7). -/
inductive Line where
  | data
  | clk
  | load
  deriving DecidableEq, Repr

/-- One bit per line: the register files OE and LV (10_state R39). -/
structure Lines where
  data : Bool
  clk : Bool
  load : Bool
  deriving DecidableEq, Repr

/-- PHASE (10_state R25). -/
inductive Phase where
  | encode
  | configured
  | sent
  | halted
  | faulted
  deriving DecidableEq, Repr

/-- The fault codes 1 to 9 (60_exceptions R171). -/
inductive FaultCode where
  | badChar
  | tooLong
  | dpOverflow
  | cfgDigitcount
  | cfgIntensity
  | platform
  | loadback
  | sequence
  | illegalCmd
  deriving DecidableEq, Repr

/-- The events of the trace (00_scope R13). -/
inductive Event where
  /-- PLAT(ok). -/
  | plat (ok : Bool)
  /-- CFG(l). -/
  | cfg (l : Line)
  /-- WR(l, b). -/
  | wr (l : Line) (b : Bool)
  /-- RD(LOAD, b). -/
  | rd (b : Bool)
  deriving DecidableEq, Repr

/-- The micro-operations of the commands (00_scope R11, R12). DESIGN CHOICE: an encoder step is one
micro-operation, and a command's assignment to PHASE is one of its own; safe (log 9). -/
inductive Micro where
  /-- ENC_CLEAR's body (41_encoder R140). -/
  | clearFrame
  /-- ENC_CHAR's DIGIT case (41_encoder R142). -/
  | encodeDigit (code : BitVec 4)
  /-- ENC_CHAR's DP case (41_encoder R143). -/
  | encodeDp
  /-- PlatformSetup() and its check (40_protocol R114 step 1). -/
  | platformSetup
  /-- LineCfgOut(l); OE[l] <- 1 (40_protocol R114 step 1). -/
  | cfgOut (l : Line)
  /-- LineWrite(l, b) (00_scope R11). -/
  | write (l : Line) (b : Bool)
  /-- The end of INIT step 2, where the observation of the run starts (20_memory R62). -/
  | markObservation
  /-- LineRead(LOAD) and its check (40_protocol R114 step 3). -/
  | readLoad
  /-- PHASE <- CONFIGURED (40_protocol R114). -/
  | enterConfigured
  /-- PHASE <- SENT (40_protocol R116). -/
  | enterSent
  /-- EXIT <- 0; PHASE <- HALTED (42_control R160). -/
  | halt
  /-- raise Fault(code, info) (60_exceptions R176). -/
  | raise (code : FaultCode) (info : Byte)
  deriving DecidableEq, Repr

/-- The reference receiver (20_memory R62): environment state, the block's far end. -/
structure Receiver where
  /-- RX_SR. -/
  sr : Wire
  /-- RX_DATA. -/
  data : Bool
  /-- RX_CLK. -/
  clk : Bool
  /-- RX_LOAD. -/
  load : Bool
  /-- RX_LOG, in latch order. -/
  log : List Wire
  /-- RxReg[0..255]. -/
  reg : Vector Byte 256
  deriving DecidableEq, Repr

/-- What a RESET draws (10_state R40, 20_memory R62): the levels LV and the receiver's state at the start
of the run. DESIGN CHOICE: the environment hands them over with the RESET; safe (log 3). -/
structure Draw where
  lv : Lines
  rx : Receiver
  deriving DecidableEq, Repr

/-- What the host, the platform or an undriven pad does next (10_state R36, 42_control R164). -/
inductive Input where
  /-- The host offers a command word; an accepted command runs to its end (42_control R163). -/
  | cmd (w : Word)
  /-- The host offers a command word, and the next input lands after `k` of its micro-operations
  (10_state R24, R26). DESIGN CHOICE: how the schedule says where it lands; safe (log 8). -/
  | begin (w : Word) (k : Nat)
  /-- The next input lands after `k` more micro-operations of the command in progress (log 8). -/
  | run (k : Nat)
  /-- The host offers ENC_CHAR of this character (30_encoding R84). DESIGN CHOICE: the CHAR8 view of
  that offer; safe (log 13). -/
  | char (c : Byte)
  /-- The level at the PLAT_OK port becomes `b` (10_state R36). -/
  | plat (b : Bool)
  /-- The level at the LOAD_I port becomes `b` (10_state R36). -/
  | loadIn (b : Bool)
  /-- The receiver sees level `b` on a pad the block does not drive (20_memory R65). -/
  | pad (l : Line) (b : Bool)
  /-- RESET (70_reset R200), with the draws of the run it starts. -/
  | reset (d : Draw)
  deriving DecidableEq, Repr

/-- The machine's state. -/
structure State where
  /-- F[0..7], the Register Frame (10_state R20). -/
  frame : Vector Byte 8
  /-- CUR (10_state R22). -/
  cur : BitVec 4
  /-- PHASE (10_state R25). -/
  phase : Phase
  /-- BUSY (10_state R26). -/
  busy : Bool
  /-- The sequencer position (10_state R24): the micro-operations still to run, none when idle. -/
  seq : List Micro
  /-- FCODE, none for NONE (10_state R27). -/
  fcode : Option FaultCode
  /-- BADCHAR (10_state R28). -/
  badchar : Byte
  /-- EXIT (10_state R29). -/
  exitCode : Byte
  /-- OE (10_state R30). -/
  oe : Lines
  /-- LV (10_state R31). -/
  lv : Lines
  /-- The level at the PLAT_OK port (10_state R36). -/
  platOk : Bool
  /-- The level at the LOAD_I port (10_state R36). -/
  loadI : Bool
  /-- The command-stream pointer cp (10_state R23): how many accepted commands have ended. -/
  cp : Nat
  /-- The event trace (00_scope R13), oldest first. -/
  trace : List Event
  /-- What the environment does next, oldest first. -/
  inputs : List Input
  /-- The reference receiver (20_memory R62). -/
  rx : Receiver
  /-- Where in RX_LOG the observation of this run starts (20_memory R62): its length at the end of INIT
  step 2, none before. The model's own field; DESIGN CHOICE, safe (log 18). -/
  obsStart : Option Nat
  deriving DecidableEq, Repr

/-- Why the machine stops. No fault of the spec is here: those are next states (60_exceptions R176). -/
inductive Fault where
  /-- Raised by `step` when an input drives a line the block has configured as an output, which 42_control
  R164 assumes never to happen and gives no move. Safe: the machine stops where the spec says nothing (log 15). -/
  | lineContention (l : Line)
  deriving DecidableEq, Repr

/-- Why a step gives no meaning. -/
inductive Refusal where
  /-- An instruction of the opcode table without a meaning in `exec`. Raised by no arm of this model. Safe. -/
  | notModelled (mnemonic : String)
  deriving DecidableEq, Repr

/-- The receiver when the machine starts. The spec calls it arbitrary (20_memory R62).
DESIGN CHOICE: all zero, nothing latched; unsafe, and no statement rests on it (log 2). -/
def Receiver.powerUp : Receiver :=
  { sr := 0, data := false, clk := false, load := false, log := [], reg := Vector.replicate 256 0 }

/-- The machine right after reset (10_state R40, 70_reset R200). LV is a free value (log 1); the ports
PLAT_OK and LOAD_I hold 1 (DESIGN CHOICE, unsafe, log 4); the schedule is empty (log 17). -/
def State.reset : State :=
  { frame := Vector.replicate 8 0
    cur := 0
    phase := .encode
    busy := false
    seq := []
    fcode := none
    badchar := 0
    exitCode := 0
    oe := { data := false, clk := false, load := false }
    lv := { data := Config.powerUpLevel 0, clk := Config.powerUpLevel 1, load := Config.powerUpLevel 2 }
    platOk := true
    loadI := true
    cp := 0
    trace := []
    inputs := []
    rx := Receiver.powerUp
    obsStart := none }

end Sys2Proof.Machine
end

