-- ==== Sys2Proof/Machine/Operands.lean ====
section
/-! DEFINITION. Operand forms: the line registers by index, the character ROM, and the constant
(address, data) lists of the commands. CMD32 operand fields are assembled in Decode (30_encoding R84). -/

namespace Sys2Proof.Machine

/-- DATA = 0, CLK = 1, LOAD = 2 (10_state R39). -/
def Line.index : Line → Nat
  | .data => 0
  | .clk => 1
  | .load => 2

/-- The bit of a line. -/
def Lines.get (r : Lines) : Line → Bool
  | .data => r.data
  | .clk => r.clk
  | .load => r.load

/-- The registers with the bit of one line replaced. -/
def Lines.set (r : Lines) (l : Line) (b : Bool) : Lines :=
  match l with
  | .data => { r with data := b }
  | .clk => { r with clk := b }
  | .load => { r with load := b }

/-- The phases in which commands are accepted (00_scope R15). -/
def Phase.live : Phase → Bool
  | .encode => true
  | .configured => true
  | .sent => true
  | .halted => false
  | .faulted => false

/-- The valid characters' ROM entries, as the tables of 30_encoding R90, R91 and R92 print them. -/
def cromTable : List (Byte × BitVec 6) :=
  [(0x30, 0x10), (0x31, 0x11), (0x32, 0x12), (0x33, 0x13), (0x34, 0x14),
   (0x35, 0x15), (0x36, 0x16), (0x37, 0x17), (0x38, 0x18), (0x39, 0x19)] ++
  [(0x2D, 0x1A), (0x45, 0x1B), (0x65, 0x1B), (0x48, 0x1C), (0x68, 0x1C),
   (0x4C, 0x1D), (0x6C, 0x1D), (0x50, 0x1E), (0x70, 0x1E), (0x20, 0x1F)] ++
  [(0x2E, 0x20)]

/-- CROM[c] (10_state R33, 30_encoding R89); every other character is INVALID, entry 0x00 (R93). -/
def crom (c : Byte) : BitVec 6 := (cromTable.lookup c).getD 0

/-- CLASS of a ROM entry, bits 5:4 (30_encoding R89). -/
def romClass (e : BitVec 6) : BitVec 2 := bits 4 2 e

/-- CODE of a ROM entry, bits 3:0 (30_encoding R89). -/
def romCode (e : BitVec 6) : BitVec 4 := bits 0 4 e

/-- INIT's transactions in order: the No-Op of step 4 and the five of step 5 (40_protocol R115). -/
def initTransactions (n m k : Byte) : List (Byte × Byte) :=
  [(0x00, 0x00), (0x0B, n), (0x09, m), (0x0F, 0x00), (0x0A, k), (0x0C, 0x01)]

/-- FRAME_OUT's transactions in order: slot s to address s + 1 (40_protocol R116, 20_memory R53). -/
def frameTransactions (f : Vector Byte 8) : List (Byte × Byte) :=
  [(0x01, f[0]), (0x02, f[1]), (0x03, f[2]), (0x04, f[3]),
   (0x05, f[4]), (0x06, f[5]), (0x07, f[6]), (0x08, f[7])]

end Sys2Proof.Machine
end

