-- ==== Sys2Proof/Machine/Flags.lean ====
section
/-! DEFINITION. The status flags and codes: the block has no arithmetic flags (10_state R38). The bit
encodings of PHASE and FCODE, the exit codes, and the output ports as views of the state. -/

namespace Sys2Proof.Machine

/-- PHASE as its 3-bit value (10_state R25). -/
def Phase.code : Phase → BitVec 3
  | .encode => 0
  | .configured => 1
  | .sent => 2
  | .halted => 3
  | .faulted => 4

/-- FCODE of a fault (60_exceptions R171). -/
def FaultCode.code : FaultCode → BitVec 4
  | .badChar => 1
  | .tooLong => 2
  | .dpOverflow => 3
  | .cfgDigitcount => 4
  | .cfgIntensity => 5
  | .platform => 6
  | .loadback => 7
  | .sequence => 8
  | .illegalCmd => 9

/-- FCODE, 0 for NONE (10_state R27). -/
def fcodeBits : Option FaultCode → BitVec 4
  | none => 0
  | some c => c.code

/-- ExitCode(code) (60_exceptions R172). The two configuration-bound codes are OPEN parameters (log 5). -/
def FaultCode.exit : FaultCode → Byte
  | .badChar => 1
  | .tooLong => 1
  | .dpOverflow => 1
  | .cfgDigitcount => Config.exitCfgDigitcount
  | .cfgIntensity => Config.exitCfgIntensity
  | .platform => 1
  | .loadback => 2
  | .sequence => 1
  | .illegalCmd => 1

/-- The STATUS port (10_state R34). -/
def State.status (s : State) : Word :=
  s.exitCode ++ 0#1 ++ BitVec.ofBool s.oe.load ++ BitVec.ofBool s.oe.clk ++ BitVec.ofBool s.oe.data ++
    s.cur ++ s.badchar ++ fcodeBits s.fcode ++ BitVec.ofBool s.busy ++ s.phase.code

/-- The FRAME port, F[7] ++ F[6] ++ ... ++ F[0] (10_state R37). -/
def State.framePort (s : State) : BitVec 64 :=
  s.frame[7] ++ s.frame[6] ++ s.frame[5] ++ s.frame[4] ++ s.frame[3] ++ s.frame[2] ++ s.frame[1] ++ s.frame[0]

/-- DATA_O, CLK_O, LOAD_O: LV[l], driven when OE[l] = 1 (10_state R31, R37). What the pad shows otherwise
is not in the source (91 N7). -/
def State.padOut (s : State) (l : Line) : Option Bool :=
  if s.oe.get l then some (s.lv.get l) else none

/-- The CMD port and CMD_VALID: the word the host offers, if it offers one (10_state R36). -/
def State.offered (s : State) : Option Word :=
  match s.inputs with
  | .cmd w :: _ => some w
  | .begin w _ :: _ => some w
  | .char c :: _ => some (0x200000#24 ++ c)
  | _ => none

/-- The observation of the run in RX_LOG: what was latched after INIT step 2 (20_memory R62). -/
def State.observedWords (s : State) : List Wire :=
  match s.obsStart with
  | none => []
  | some k => s.rx.log.drop k

end Sys2Proof.Machine
end

