-- ==== Sys2Proof/Machine/Ops.lean ====
section
/-! DEFINITION. The named operations: the receiver's (20_memory R63, R64), the line primitives
(00_scope R11), fault entry (60_exceptions R176), RESET (70_reset R200), command acceptance
(42_control R161) and the running of micro-operations (00_scope R12, 10_state R24). -/

namespace Sys2Proof.Machine

/-- Latch(w) (20_memory R64): the whole address byte selects the register. -/
def Receiver.latch (r : Receiver) (w : Wire) : Receiver :=
  { r with
    log := r.log ++ [w]
    reg := r.reg.set (bits 8 8 w : Byte).toNat (bits 0 8 w) (bits 8 8 w : Byte).isLt }

/-- The receiver sees WR(l, b) (20_memory R63): it shifts on a CLK rising edge and latches RX_SR on a
LOAD rising edge. -/
def Receiver.see (r : Receiver) : Line → Bool → Receiver
  | .data, b => { r with data := b }
  | .clk, b => { r with sr := if b && !r.clk then r.sr.shiftConcat r.data else r.sr, clk := b }
  | .load, b => { (if b && !r.load then r.latch r.sr else r) with load := b }

/-- The receiver latches `(a << 8) | d` (20_memory R64): the one effect of a wire row. -/
def State.latchWord (a d : Byte) (s : State) : State :=
  { s with rx := s.rx.latch (wireWord a d) }

/-- LineWrite(l, b) (00_scope R11); the receiver sees the level before the next micro-operation (20_memory R60). -/
def State.lineWrite (l : Line) (b : Bool) (s : State) : State :=
  { s with lv := s.lv.set l b, trace := s.trace ++ [.wr l b], rx := s.rx.see l b }

/-- LineCfgOut(l); OE[l] <- 1 (00_scope R11, 40_protocol R114). -/
def State.lineCfgOut (l : Line) (s : State) : State :=
  { s with oe := s.oe.set l true, trace := s.trace ++ [.cfg l] }

/-- raise Fault(code, info) (60_exceptions R176): the one fault entry of the block. There is no return
from it but RESET (R177). -/
def State.raise (code : FaultCode) (info : Byte) (s : State) : State :=
  { s with
    fcode := some code
    exitCode := code.exit
    badchar := if code = .badChar then info else s.badchar
    phase := .faulted
    busy := false
    seq := [] }

/-- RESET (70_reset R200): every piece of block state takes its value of 10_state R40, LV and the receiver
their draws; no event is recorded. cp, the trace, the schedule and the input ports are no block state (log 10, log 18). -/
def State.applyReset (d : Draw) (s : State) : State :=
  { s with
    frame := Vector.replicate 8 0
    cur := 0
    phase := .encode
    busy := false
    seq := []
    fcode := none
    badchar := 0
    exitCode := 0
    oe := { data := false, clk := false, load := false }
    lv := d.lv
    rx := d.rx
    obsStart := none }

/-- What a micro-operation leads to: the next one, or the end of the command (00_scope R12). -/
inductive Flow where
  | go (s : State)
  | stop (s : State)
  deriving DecidableEq, Repr

/-- One iteration of the encoder's DIGIT case (41_encoder R142): the length check, the OR, the cursor.
DESIGN CHOICE: CUR values 9..15, which are never held, count as full; safe (log 16). -/
def State.encodeDigit (code : BitVec 4) (s : State) : Flow :=
  if h : s.cur.toNat < 8 then
    .go { s with
      frame := s.frame.set s.cur.toNat (s.frame[s.cur.toNat] ||| code.zeroExtend 8)
      cur := s.cur + 1 }
  else .stop (s.raise .tooLong 0)

/-- One iteration of the encoder's DP case (41_encoder R143): OR of bit 7, the cursor stays. -/
def State.encodeDp (s : State) : Flow :=
  if h : s.cur.toNat < 8 then
    .go { s with frame := s.frame.set s.cur.toNat (s.frame[s.cur.toNat] ||| 0x80#8) }
  else .stop (s.raise .dpOverflow 0)

/-- PlatformSetup() and its check (00_scope R11, 40_protocol R114 step 1). -/
def State.platformSetup (s : State) : Flow :=
  let t := { s with trace := s.trace ++ [.plat s.platOk] }
  if s.platOk then .go t else .stop (t.raise .platform 0)

/-- LineRead(LOAD) and its check (00_scope R11, 40_protocol R114 step 3). -/
def State.readLoad (s : State) : Flow :=
  let t := { s with trace := s.trace ++ [.rd s.loadI] }
  if s.loadI then .go t else .stop (t.raise .loadback 0)

/-- The effect of one micro-operation. -/
def Micro.run (m : Micro) (s : State) : Flow :=
  match m with
  | .clearFrame => .go { s with frame := Vector.replicate 8 0, cur := 0 }
  | .encodeDigit code => s.encodeDigit code
  | .encodeDp => s.encodeDp
  | .platformSetup => s.platformSetup
  | .cfgOut l => .go (s.lineCfgOut l)
  | .write l b => .go (s.lineWrite l b)
  | .markObservation => .go { s with obsStart := some s.rx.log.length }
  | .readLoad => s.readLoad
  | .enterConfigured => .go { s with phase := .configured }
  | .enterSent => .go { s with phase := .sent }
  | .halt => .stop { s with exitCode := 0, phase := .halted }
  | .raise code info => .stop (s.raise code info)

/-- The micro-operations in order, up to the first that ends the command (00_scope R12). -/
def runOps : List Micro → State → State
  | [], s => s
  | m :: ms, s =>
    match m.run s with
    | .go t => runOps ms t
    | .stop t => t

/-- The block between commands: BUSY = 0 and no micro-operation to run (10_state R24, R26). -/
def State.idle (s : State) : State := { s with busy := false, seq := [] }

/-- A whole command as one step (10_state R24): its micro-operations, then BUSY <- 0 (42_control R163). -/
def complete (ops : List Micro) (s : State) : State := (runOps ops s).idle

/-- The first `k` micro-operations; BUSY = 1 and the rest in `seq` while some are left (10_state R24, R26). -/
def runFor : Nat → List Micro → State → State
  | _, [], s => s.idle
  | 0, m :: ms, s => { s with busy := true, seq := m :: ms }
  | k + 1, m :: ms, s =>
    match m.run s with
    | .go t => runFor k ms t
    | .stop t => t.idle

/-- After some micro-operations of an accepted command: cp advances by one when the command has ended, by completing
or by its fault, and stays while it is in progress (10_state R23, 42_control R163, R166 (a); log 10). cp belongs to the host's
program, so no meaning and no micro-operation touches it. -/
def State.countEnded (s : State) : State := if s.busy then s else { s with cp := s.cp + 1 }

/-- The first `k` micro-operations of an accepted command, counted in cp if it ends among them (10_state R23, R24). -/
def State.runCommand (k : Nat) (ops : List Micro) (s : State) : State := (runFor k ops s).countEnded

/-- The command in progress, if any, run to its end and counted in cp (42_control R163, 10_state R23). -/
def State.finish (s : State) : State := if s.busy then (complete s.seq s).countEnded else s

/-- `k` more micro-operations of the command in progress, if any (10_state R24). -/
def State.continueCommand (k : Nat) (s : State) : State := if s.busy then s.runCommand k s.seq else s

/-- Where a command may run (42_control R161). -/
inductive Need where
  /-- Only in ENCODE: ENC_CLEAR, ENC_CHAR, INIT. -/
  | encoding
  /-- Only after INIT, in CONFIGURED or SENT: SHIFT16, TXN, FRAME_OUT. -/
  | configured
  /-- In any live phase: HALT. -/
  | live
  deriving DecidableEq, Repr

/-- The phase check (42_control R161): the command's micro-operations, SEQUENCE, or no step at all. -/
def phaseCheck (need : Need) (s : State) (ops : List Micro) : List Micro :=
  match need, s.phase with
  | _, .halted => []
  | _, .faulted => []
  | .live, _ => ops
  | .encoding, .encode => ops
  | .encoding, _ => [.raise .sequence 0]
  | .configured, .encode => [.raise .sequence 0]
  | .configured, _ => ops

/-- ShiftBody's line writes (40_protocol R110): bit 15 first, each CLK low, DATA, CLK high. -/
def shiftWrites (v : Wire) : List (Line × Bool) :=
  [15, 14, 13, 12, 11, 10, 9, 8, 7, 6, 5, 4, 3, 2, 1, 0].flatMap
    fun i => [(.clk, false), (.data, v.getLsbD i), (.clk, true)]

/-- TxnBody's line writes (40_protocol R112). -/
def txnWrites (a d : Byte) : List (Line × Bool) :=
  [(.load, true)] ++ shiftWrites (wireWord a d) ++ [(.load, false), (.load, true)]

/-- The transactions of a list, one after the other. -/
def txnsWrites (ts : List (Byte × Byte)) : List (Line × Bool) :=
  ts.flatMap fun t => txnWrites t.1 t.2

/-- Line writes as micro-operations. -/
def writeOps (ws : List (Line × Bool)) : List Micro := ws.map fun w => .write w.1 w.2

/-- Accept the offer at the head of the schedule (42_control R163): BUSY <- 1. cp stays until the command has ended
(10_state R23). -/
def State.accept (rest : List Input) (s : State) : State := { s with inputs := rest, busy := true }

/-- A word no row selects (42_control R162): Fault(ILLEGAL_CMD) and nothing else. The raise is a micro-operation like
any other (00_scope R11, R15). DESIGN CHOICE: an input can land between the acceptance of the word and this raise; safe
(log 8). -/
def illegalOps : List Micro := [.raise .illegalCmd 0]

end Sys2Proof.Machine
end

