-- ==== Sys2Proof/Machine/Encoder.lean ====
section
/-! DEFINITION. The Digit Encoder's commands: ENC_CLEAR and ENC_CHAR (41_encoder R140, R141). -/

namespace Sys2Proof.Machine

/-- The DIGIT case of the scan, with its phase check (41_encoder R141, R142). -/
def digitOps (code : BitVec 4) (s : State) : List Micro := phaseCheck .encoding s [.encodeDigit code]

/-- The DP case of the scan, with its phase check (41_encoder R141, R143). -/
def dpOps (s : State) : List Micro := phaseCheck .encoding s [.encodeDp]

/-- The INVALID case of the scan, with its phase check (41_encoder R141, R144). -/
def invalidOps (c : Byte) (s : State) : List Micro := phaseCheck .encoding s [.raise .badChar c]

/-- ENC_CLEAR's micro-operations (41_encoder R140). -/
def encClearOps (s : State) : List Micro := phaseCheck .encoding s [.clearFrame]

/-- ENC_CHAR's micro-operations: the ROM class selects the case (41_encoder R141). -/
def encCharOps (c : Byte) (s : State) : List Micro :=
  if romClass (crom c) = 1#2 then digitOps (romCode (crom c)) s
  else if romClass (crom c) = 2#2 then dpOps s
  else invalidOps c s

/-- ENC_CLEAR (41_encoder R140). -/
def execEncClear (s : State) : Host.Outcome State Fault Refusal := .next (complete (encClearOps s) s)

/-- ENC_CHAR (41_encoder R141). -/
def execEncChar (c : Byte) (s : State) : Host.Outcome State Fault Refusal := .next (complete (encCharOps c s) s)

end Sys2Proof.Machine
end

