-- ==== Sys2Proof/Machine/Characters.lean ====
section
/-! DEFINITION. The character rows (30_encoding R90 to R93): each is one iteration of the encoder's scan
for its character (41_encoder R141 to R144), as ENC_CHAR runs it. -/

namespace Sys2Proof.Machine

/-- A DIGIT character of this code, run as a whole (41_encoder R142). -/
def encodeDigitChar (code : BitVec 4) (s : State) : Host.Outcome State Fault Refusal :=
  .next (complete (digitOps code s) s)

/-- ' ', code 15 (30_encoding R91). -/
def execCharSpace (s : State) : Host.Outcome State Fault Refusal := encodeDigitChar 15 s

/-- '-', code 10 (30_encoding R91). -/
def execCharMinus (s : State) : Host.Outcome State Fault Refusal := encodeDigitChar 10 s

/-- '.' (30_encoding R92): the DP case (41_encoder R143). -/
def execCharDot (s : State) : Host.Outcome State Fault Refusal := .next (complete (dpOps s) s)

/-- '0', code 0 (30_encoding R90). -/
def execChar0 (s : State) : Host.Outcome State Fault Refusal := encodeDigitChar 0 s

/-- '1', code 1 (30_encoding R90). -/
def execChar1 (s : State) : Host.Outcome State Fault Refusal := encodeDigitChar 1 s

/-- '2', code 2 (30_encoding R90). -/
def execChar2 (s : State) : Host.Outcome State Fault Refusal := encodeDigitChar 2 s

/-- '3', code 3 (30_encoding R90). -/
def execChar3 (s : State) : Host.Outcome State Fault Refusal := encodeDigitChar 3 s

/-- '4', code 4 (30_encoding R90). -/
def execChar4 (s : State) : Host.Outcome State Fault Refusal := encodeDigitChar 4 s

/-- '5', code 5 (30_encoding R90). -/
def execChar5 (s : State) : Host.Outcome State Fault Refusal := encodeDigitChar 5 s

/-- '6', code 6 (30_encoding R90). -/
def execChar6 (s : State) : Host.Outcome State Fault Refusal := encodeDigitChar 6 s

/-- '7', code 7 (30_encoding R90). -/
def execChar7 (s : State) : Host.Outcome State Fault Refusal := encodeDigitChar 7 s

/-- '8', code 8 (30_encoding R90). -/
def execChar8 (s : State) : Host.Outcome State Fault Refusal := encodeDigitChar 8 s

/-- '9', code 9 (30_encoding R90). -/
def execChar9 (s : State) : Host.Outcome State Fault Refusal := encodeDigitChar 9 s

/-- 'E', code 11 (30_encoding R91). -/
def execCharE (s : State) : Host.Outcome State Fault Refusal := encodeDigitChar 11 s

/-- 'H', code 12 (30_encoding R91). -/
def execCharH (s : State) : Host.Outcome State Fault Refusal := encodeDigitChar 12 s

/-- 'L', code 13 (30_encoding R91). -/
def execCharL (s : State) : Host.Outcome State Fault Refusal := encodeDigitChar 13 s

/-- 'P', code 14 (30_encoding R91). -/
def execCharP (s : State) : Host.Outcome State Fault Refusal := encodeDigitChar 14 s

/-- 'e', code 11 (30_encoding R91). -/
def execCharLowerE (s : State) : Host.Outcome State Fault Refusal := encodeDigitChar 11 s

/-- 'h', code 12 (30_encoding R91). -/
def execCharLowerH (s : State) : Host.Outcome State Fault Refusal := encodeDigitChar 12 s

/-- 'l', code 13 (30_encoding R91). -/
def execCharLowerL (s : State) : Host.Outcome State Fault Refusal := encodeDigitChar 13 s

/-- 'p', code 14 (30_encoding R91). -/
def execCharLowerP (s : State) : Host.Outcome State Fault Refusal := encodeDigitChar 14 s

/-- Any other character: Fault(BAD_CHAR, C) (41_encoder R144). -/
def execCharInvalid (c : Byte) (s : State) : Host.Outcome State Fault Refusal :=
  .next (complete (invalidOps c s) s)

end Sys2Proof.Machine
end

