-- ==== Sys2Proof/Machine/Control.lean ====
section
/-! DEFINITION. The control command HALT (42_control R160). -/

namespace Sys2Proof.Machine

/-- HALT's micro-operations (42_control R160). -/
def haltOps (s : State) : List Micro := phaseCheck .live s [.halt]

/-- HALT (42_control R160). -/
def execHalt (s : State) : Host.Outcome State Fault Refusal := .next (complete (haltOps s) s)

end Sys2Proof.Machine
end

