-- ==== Sys2Proof/Machine/Protocol.lean ====
section
/-! DEFINITION. The Protocol Driver's commands: SHIFT16, TXN, INIT and FRAME_OUT (40_protocol). -/

namespace Sys2Proof.Machine

/-- SHIFT16's micro-operations (40_protocol R111). -/
def shift16Ops (v : Wire) (s : State) : List Micro := phaseCheck .configured s (writeOps (shiftWrites v))

/-- TXN's micro-operations (40_protocol R113). -/
def txnOps (a d : Byte) (s : State) : List Micro := phaseCheck .configured s (writeOps (txnWrites a d))

/-- INIT's steps 1 to 5 (40_protocol R114): lines as outputs, initial levels, the Load read-back, the No-Op
flush and the configuration of R115. The lines are configured in the order DATA, CLK, LOAD. -/
def initBody (n m k : Byte) : List Micro :=
  [.platformSetup, .cfgOut .data, .cfgOut .clk, .cfgOut .load] ++
  writeOps [(.load, true), (.clk, false), (.data, false)] ++
  [.markObservation, .readLoad] ++
  writeOps (txnsWrites (initTransactions n m k)) ++
  [.enterConfigured]

/-- INIT's micro-operations: the phase check, then the two bound checks, digitCount first, before any line
is touched (40_protocol R114, 60_exceptions R174). -/
def initOps (n m k : Byte) (s : State) : List Micro :=
  phaseCheck .encoding s
    (if 7#8 < n then [.raise .cfgDigitcount 0]
     else if 15#8 < k then [.raise .cfgIntensity 0]
     else initBody n m k)

/-- FRAME_OUT's micro-operations (40_protocol R116). Nothing writes F while the command runs (20_memory R58),
so the slots are read at its start. -/
def frameOutOps (s : State) : List Micro :=
  phaseCheck .configured s (writeOps (txnsWrites (frameTransactions s.frame)) ++ [.enterSent])

/-- SHIFT16 (40_protocol R111). -/
def execShift16 (v : Wire) (s : State) : Host.Outcome State Fault Refusal := .next (complete (shift16Ops v s) s)

/-- TXN (40_protocol R113). -/
def execTxn (a d : Byte) (s : State) : Host.Outcome State Fault Refusal := .next (complete (txnOps a d s) s)

/-- INIT (40_protocol R114). -/
def execInit (n m k : Byte) (s : State) : Host.Outcome State Fault Refusal := .next (complete (initOps n m k s) s)

/-- FRAME_OUT (40_protocol R116). -/
def execFrameOut (s : State) : Host.Outcome State Fault Refusal := .next (complete (frameOutOps s) s)

end Sys2Proof.Machine
end

