-- ==== Sys2Proof/Machine/Receiver.lean ====
section
/-! DEFINITION. The wire words the receiver latches, one per named address (30_encoding R87). The effect the
spec gives a wire word at the far end is Latch(w) (20_memory R64); what the display then shows is outside the
block (00_scope R6, 20_memory R67). -/

namespace Sys2Proof.Machine

/-- No-Op, address 0x00 (20_memory R52, R64). -/
def execWireNoop (d : Byte) (s : State) : Host.Outcome State Fault Refusal := .next (s.latchWord 0x00 d)

/-- Digit 0, address 0x01 (20_memory R52, R64). -/
def execWireDigit0 (d : Byte) (s : State) : Host.Outcome State Fault Refusal := .next (s.latchWord 0x01 d)

/-- Digit 1, address 0x02 (20_memory R52, R64). -/
def execWireDigit1 (d : Byte) (s : State) : Host.Outcome State Fault Refusal := .next (s.latchWord 0x02 d)

/-- Digit 2, address 0x03 (20_memory R52, R64). -/
def execWireDigit2 (d : Byte) (s : State) : Host.Outcome State Fault Refusal := .next (s.latchWord 0x03 d)

/-- Digit 3, address 0x04 (20_memory R52, R64). -/
def execWireDigit3 (d : Byte) (s : State) : Host.Outcome State Fault Refusal := .next (s.latchWord 0x04 d)

/-- Digit 4, address 0x05 (20_memory R52, R64). -/
def execWireDigit4 (d : Byte) (s : State) : Host.Outcome State Fault Refusal := .next (s.latchWord 0x05 d)

/-- Digit 5, address 0x06 (20_memory R52, R64). -/
def execWireDigit5 (d : Byte) (s : State) : Host.Outcome State Fault Refusal := .next (s.latchWord 0x06 d)

/-- Digit 6, address 0x07 (20_memory R52, R64). -/
def execWireDigit6 (d : Byte) (s : State) : Host.Outcome State Fault Refusal := .next (s.latchWord 0x07 d)

/-- Digit 7, address 0x08 (20_memory R52, R64). -/
def execWireDigit7 (d : Byte) (s : State) : Host.Outcome State Fault Refusal := .next (s.latchWord 0x08 d)

/-- Decode-Mode, address 0x09 (20_memory R52, R64). -/
def execWireDecodeMode (d : Byte) (s : State) : Host.Outcome State Fault Refusal := .next (s.latchWord 0x09 d)

/-- Intensity, address 0x0A (20_memory R52, R64). -/
def execWireIntensity (d : Byte) (s : State) : Host.Outcome State Fault Refusal := .next (s.latchWord 0x0A d)

/-- Scan-Limit, address 0x0B (20_memory R52, R64). -/
def execWireScanLimit (d : Byte) (s : State) : Host.Outcome State Fault Refusal := .next (s.latchWord 0x0B d)

/-- Shutdown, address 0x0C (20_memory R52, R64). -/
def execWireShutdown (d : Byte) (s : State) : Host.Outcome State Fault Refusal := .next (s.latchWord 0x0C d)

/-- Display-Test, address 0x0F (20_memory R52, R64). -/
def execWireDisplayTest (d : Byte) (s : State) : Host.Outcome State Fault Refusal := .next (s.latchWord 0x0F d)

end Sys2Proof.Machine
end

