-- ==== Sys2Proof/Machine/Dispatch.lean ====
section
/-! DEFINITION. One arm per constructor of Instr. -/

namespace Sys2Proof.Machine

def exec (i : Instr) (s : State) : Host.Outcome State Fault Refusal :=
  match i with
  -- host commands (30_encoding R82)
  | .encClear => Sys2Proof.Machine.execEncClear s
  | .encChar c => Sys2Proof.Machine.execEncChar c s
  | .init n m k => Sys2Proof.Machine.execInit n m k s
  | .shift16 v => Sys2Proof.Machine.execShift16 v s
  | .txn a d => Sys2Proof.Machine.execTxn a d s
  | .frameOut => Sys2Proof.Machine.execFrameOut s
  | .halt => Sys2Proof.Machine.execHalt s
  -- wire words (30_encoding R87)
  | .wireNoop d => Sys2Proof.Machine.execWireNoop d s
  | .wireDigit0 d => Sys2Proof.Machine.execWireDigit0 d s
  | .wireDigit1 d => Sys2Proof.Machine.execWireDigit1 d s
  | .wireDigit2 d => Sys2Proof.Machine.execWireDigit2 d s
  | .wireDigit3 d => Sys2Proof.Machine.execWireDigit3 d s
  | .wireDigit4 d => Sys2Proof.Machine.execWireDigit4 d s
  | .wireDigit5 d => Sys2Proof.Machine.execWireDigit5 d s
  | .wireDigit6 d => Sys2Proof.Machine.execWireDigit6 d s
  | .wireDigit7 d => Sys2Proof.Machine.execWireDigit7 d s
  | .wireDecodeMode d => Sys2Proof.Machine.execWireDecodeMode d s
  | .wireIntensity d => Sys2Proof.Machine.execWireIntensity d s
  | .wireScanLimit d => Sys2Proof.Machine.execWireScanLimit d s
  | .wireShutdown d => Sys2Proof.Machine.execWireShutdown d s
  | .wireDisplayTest d => Sys2Proof.Machine.execWireDisplayTest d s
  -- characters (30_encoding R90 to R93)
  | .charSpace => Sys2Proof.Machine.execCharSpace s
  | .charMinus => Sys2Proof.Machine.execCharMinus s
  | .charDot => Sys2Proof.Machine.execCharDot s
  | .char0 => Sys2Proof.Machine.execChar0 s
  | .char1 => Sys2Proof.Machine.execChar1 s
  | .char2 => Sys2Proof.Machine.execChar2 s
  | .char3 => Sys2Proof.Machine.execChar3 s
  | .char4 => Sys2Proof.Machine.execChar4 s
  | .char5 => Sys2Proof.Machine.execChar5 s
  | .char6 => Sys2Proof.Machine.execChar6 s
  | .char7 => Sys2Proof.Machine.execChar7 s
  | .char8 => Sys2Proof.Machine.execChar8 s
  | .char9 => Sys2Proof.Machine.execChar9 s
  | .charE => Sys2Proof.Machine.execCharE s
  | .charH => Sys2Proof.Machine.execCharH s
  | .charL => Sys2Proof.Machine.execCharL s
  | .charP => Sys2Proof.Machine.execCharP s
  | .charLowerE => Sys2Proof.Machine.execCharLowerE s
  | .charLowerH => Sys2Proof.Machine.execCharLowerH s
  | .charLowerL => Sys2Proof.Machine.execCharLowerL s
  | .charLowerP => Sys2Proof.Machine.execCharLowerP s
  | .charInvalid c => Sys2Proof.Machine.execCharInvalid c s

end Sys2Proof.Machine
end

