-- ==== Sys2Proof/Machine/Sequencer.lean ====
section
/-! DEFINITION. The micro-operations the sequencer has to run for an instruction (10_state R24). -/

namespace Sys2Proof.Machine

/-- The block's micro-operations for an instruction accepted in `s`. A wire word is the receiver's, and the
block runs none for it. -/
def opsOf (i : Instr) (s : State) : List Micro :=
  match i with
  | .encClear => encClearOps s
  | .encChar c => encCharOps c s
  | .init n m k => initOps n m k s
  | .shift16 v => shift16Ops v s
  | .txn a d => txnOps a d s
  | .frameOut => frameOutOps s
  | .halt => haltOps s
  | .wireNoop _ => []
  | .wireDigit0 _ => []
  | .wireDigit1 _ => []
  | .wireDigit2 _ => []
  | .wireDigit3 _ => []
  | .wireDigit4 _ => []
  | .wireDigit5 _ => []
  | .wireDigit6 _ => []
  | .wireDigit7 _ => []
  | .wireDecodeMode _ => []
  | .wireIntensity _ => []
  | .wireScanLimit _ => []
  | .wireShutdown _ => []
  | .wireDisplayTest _ => []
  | .charSpace => digitOps 15 s
  | .charMinus => digitOps 10 s
  | .charDot => dpOps s
  | .char0 => digitOps 0 s
  | .char1 => digitOps 1 s
  | .char2 => digitOps 2 s
  | .char3 => digitOps 3 s
  | .char4 => digitOps 4 s
  | .char5 => digitOps 5 s
  | .char6 => digitOps 6 s
  | .char7 => digitOps 7 s
  | .char8 => digitOps 8 s
  | .char9 => digitOps 9 s
  | .charE => digitOps 11 s
  | .charH => digitOps 12 s
  | .charL => digitOps 13 s
  | .charP => digitOps 14 s
  | .charLowerE => digitOps 11 s
  | .charLowerH => digitOps 12 s
  | .charLowerL => digitOps 13 s
  | .charLowerP => digitOps 14 s
  | .charInvalid c => invalidOps c s

end Sys2Proof.Machine
end

