-- ==== Sys2Proof/Machine/Fetch.lean ====
section
/-! DEFINITION. What each input of the schedule does: the host's offers (42_control R161 to R163), the pads
(20_memory R65), the input ports and RESET. The block fetches nothing (10_state R23): an instruction comes
from an offer, or, for a wire word, from RX_SR at a LOAD rising edge. -/

namespace Sys2Proof.Machine

/-- Whether the block accepts an offer now (42_control R163). -/
def State.accepts (s : State) : Bool := !s.busy && s.phase.live

/-- An offer the block does not accept. While BUSY it waits at the head of the schedule and the command in
progress runs to its end (42_control R163, log 12); when the run is over the block makes no step and the offer
is passed over (42_control R161, log 11). -/
def State.declineOffer (rest : List Input) (s : State) : State :=
  if s.busy then s.finish else { s with inputs := rest }

/-- The outcome of an accepted command, counted in cp (10_state R23). -/
def countOutcome : Host.Outcome State Fault Refusal → Host.Outcome State Fault Refusal
  | .next s => .next s.countEnded
  | .fault r => .fault r
  | .refused r => .refused r

/-- The host offers a unit that is decoded and run to its end (42_control R162, R163); then cp counts it (10_state R23). -/
def offer (p : Packet) (rest : List Input) (s : State) : Host.Outcome State Fault Refusal :=
  if s.accepts then
    match decode p with
    | .ok i => countOutcome (exec i (s.accept rest))
    | .error _ => .next (complete illegalOps (s.accept rest)).countEnded
  else .next (s.declineOffer rest)

/-- The micro-operations of an accepted command word (42_control R162). -/
def commandOps (w : Word) (s : State) : List Micro :=
  match decode (.cmd32 w) with
  | .ok i => opsOf i s
  | .error _ => illegalOps

/-- The same offer, with the next input landing after `k` micro-operations (10_state R24, 70_reset R200). DESIGN CHOICE:
with `k` = 0 it lands right after acceptance, BUSY = 1 and nothing done, for an illegal word too; safe (log 8). -/
def beginCommand (w : Word) (k : Nat) (rest : List Input) (s : State) : State :=
  if s.accepts then (s.accept rest).runCommand k (commandOps w (s.accept rest)) else s.declineOffer rest

/-- Whether the receiver would see a LOAD rising edge (20_memory R63). -/
def Receiver.latchesOn (r : Receiver) (l : Line) (b : Bool) : Bool := l == .load && b && !r.load

/-- The receiver sees a level on a pad (20_memory R65). On a LOAD rising edge it executes the wire word in
RX_SR (R63, R64), an unnamed address included (R68). A line the block drives has no other driver
(42_control R164, log 15). -/
def padInput (l : Line) (b : Bool) (rest : List Input) (s : State) : Host.Outcome State Fault Refusal :=
  if s.oe.get l then .fault (.lineContention l)
  else if s.rx.latchesOn l b then
    match decode (.wire16 s.rx.sr) with
    | .ok i => exec i { s with inputs := rest, rx := { s.rx with load := true } }
    | .error _ => .next { s with inputs := rest, rx := ({ s.rx with load := true } : Receiver).latch s.rx.sr }
  else .next { s with inputs := rest, rx := s.rx.see l b }

/-- The state in which the next step runs the unit `p`, whatever `s` is (log 17). A host unit is offered to an
idle block in a live phase; a wire word stands in RX_SR with a LOAD rising edge next on an undriven pad. -/
def State.withPacket (s : State) : Packet → State
  | .cmd32 w =>
    { s.idle with phase := if s.phase.live then s.phase else .encode, inputs := .cmd w :: s.inputs }
  | .char8 c =>
    { s.idle with phase := if s.phase.live then s.phase else .encode, inputs := .char c :: s.inputs }
  | .wire16 w =>
    { s with
      oe := s.oe.set .load false
      rx := { s.rx with sr := w, load := false }
      inputs := .pad .load true :: s.inputs }

end Sys2Proof.Machine
end

