-- ==== Sys2Proof/Machine/Step.lean ====
section
/-! DEFINITION. One step: the head of the schedule of inputs (42_control R163, R164). -/

namespace Sys2Proof.Machine

/-- One step of the machine. With no input, the command in progress, if any, runs to its end, and an idle block
waits (log 12). -/
def step (s : State) : Host.Outcome State Fault Refusal :=
  match s.inputs with
  | [] => .next s.finish
  | .cmd w :: rest => offer (.cmd32 w) rest s
  | .char c :: rest => offer (.char8 c) rest s
  | .begin w k :: rest => .next (beginCommand w k rest s)
  | .run k :: rest => .next ({ s with inputs := rest }.continueCommand k)
  | .plat b :: rest => .next { s with inputs := rest, platOk := b }
  | .loadIn b :: rest => .next { s with inputs := rest, loadI := b }
  | .pad l b :: rest => padInput l b rest s
  | .reset d :: rest => .next ({ s with inputs := rest }.applyReset d)

/-- `s` with the unit of `nbits` bits `w` placed where the next step takes it from (log 17). -/
def State.withFetchWord (s : State) (nbits w : Nat) : State :=
  match packetOf nbits w with
  | some p => s.withPacket p
  | none => s

end Sys2Proof.Machine
end

