-- ==== Sys2Proof/Machine/Assembler.lean ====
section
/-! DEFINITION. The pseudo-instructions ENCSTR and RUN as lists of instructions (30_encoding R95). -/

namespace Sys2Proof.Machine

/-- `ENCSTR "s"`: ENC_CLEAR, then ENC_CHAR of each character, last to first (30_encoding R95). -/
def encstr (s : List Byte) : List Instr := .encClear :: s.reverse.map .encChar

/-- `RUN "s", n, m, k` (30_encoding R95). -/
def runPseudo (s : List Byte) (n m k : Byte) : List Instr := encstr s ++ [.init n m k, .frameOut, .halt]

/-- The canonical run of a string, with the OPEN parameters CFG_N, CFG_M and CFG_K (00_scope R9). -/
def canonicalRun (s : List Byte) : List Instr := runPseudo s Config.cfgN Config.cfgM Config.cfgK

/-- The host's offers of a list of commands (30_encoding R94): each instruction's own unit. -/
def offersOf (is : List Instr) : List Input :=
  is.filterMap fun i =>
    match encode i with
    | .cmd32 w => some (.cmd w)
    | .char8 c => some (.char c)
    | .wire16 _ => none

/-- The commands of a list, one after the other, until the run ends (42_control R165). -/
def runInstrs : List Instr → State → State
  | [], s => s
  | i :: is, s =>
    match exec i s with
    | .next t => if t.phase.live then runInstrs is t else t
    | .fault _ => s
    | .refused _ => s

end Sys2Proof.Machine
end

