-- ==== Sys2Proof/Safety.lean ====
section
/-! DEFINITION. What claims are stated in: the ends of a run (42_control R165), the observation (00_scope R13),
the invariants of the block, and the line sequences as the rules print them. -/

namespace Sys2Proof.Machine

/-- A run has ended (42_control R165). -/
def State.ended (s : State) : Bool := s.phase == .halted || s.phase == .faulted

/-- The only successful end of a run (42_control R165). -/
def State.succeeded (s : State) : Bool := s.phase == .halted && s.exitCode == 0

/-- What two runs are compared by (00_scope R13). -/
structure Observation where
  trace : List Event
  status : Word
  frame : BitVec 64
  deriving DecidableEq, Repr

/-- The observation of a state (00_scope R13). -/
def State.observation (s : State) : Observation := { trace := s.trace, status := s.status, frame := s.framePort }

/-- The block between commands (10_state R26). -/
def State.isIdle (s : State) : Prop := s.busy = false ∧ s.seq = []

/-- The encoder's invariants (10_state R21, R22, 41_encoder R146 (a), (b)). -/
structure State.EncoderInv (s : State) : Prop where
  cur_le : s.cur.toNat ≤ 8
  zero_bits : ∀ i : Fin 8, bits 4 3 s.frame[i] = 0
  above_cur : ∀ i : Fin 8, s.cur.toNat < i.val → s.frame[i] = 0
  at_cur : ∀ i : Fin 8, i.val = s.cur.toNat → s.frame[i] = 0x00 ∨ s.frame[i] = 0x80

/-- What FCODE, EXIT and BADCHAR hold in each phase (10_state R27 to R29, 60_exceptions R172). -/
def State.RecordInv (s : State) : Prop :=
  match s.fcode with
  | none => s.phase ≠ .faulted ∧ s.exitCode = 0 ∧ s.badchar = 0
  | some c => s.phase = .faulted ∧ s.exitCode = c.exit ∧ (c ≠ .badChar → s.badchar = 0)

/-- BUSY is 0 in HALTED and FAULTED, and an idle sequencer has nothing to run (10_state R24, R26). -/
def State.SequencerInv (s : State) : Prop :=
  (s.busy = true → s.phase.live = true) ∧ (s.busy = false → s.seq = [])

/-- The block's invariant, between commands and inside them. -/
structure State.BlockInv (s : State) : Prop where
  encoder : s.EncoderInv
  record : s.RecordInv
  sequencer : s.SequencerInv

/-- After INIT, between commands: the lines are outputs, LOAD and CLK are high (40_protocol R117), the receiver
saw the levels the block drives, and the observation of the run has started (20_memory R62). -/
def State.LinesInv (s : State) : Prop :=
  s.phase = .configured ∨ s.phase = .sent →
    s.oe = ⟨true, true, true⟩ ∧ s.lv.load = true ∧ s.lv.clk = true ∧
    s.rx.data = s.lv.data ∧ s.rx.clk = true ∧ s.rx.load = true ∧
    ∃ k, s.obsStart = some k ∧ k ≤ s.rx.log.length

/-- The level the receiver last saw on a line (20_memory R62). -/
def Receiver.level (r : Receiver) : Line → Bool
  | .data => r.data
  | .clk => r.clk
  | .load => r.load

/-- The level the last write to a line among some micro-operations drove (10_state R31). -/
def lastWrite (l : Line) : List Micro → Option Bool
  | [] => none
  | .write l' b :: ms => (lastWrite l ms).orElse fun _ => if l' = l then some b else none
  | _ :: ms => lastWrite l ms

/-- The observation of the run has started, and nothing of it is beyond RX_LOG (20_memory R62). -/
def State.ObservationInv (s : State) : Prop := ∃ k, s.obsStart = some k ∧ k ≤ s.rx.log.length

/-- What the micro-operations a command has done so far have left: the lines it configured are outputs, the lines it wrote
hold the last level, at the receiver too, and the observation it started stands (40_protocol R110, R112, R114). -/
structure State.Done (s : State) (done : List Micro) : Prop where
  outputs : ∀ l, .cfgOut l ∈ done → s.oe.get l = true
  levels : ∀ l b, lastWrite l done = some b → s.lv.get l = b ∧ s.rx.level l = b
  observed : .markObservation ∈ done → s.ObservationInv

/-- Inside a command: what is left to run is the rest of the micro-operations of a command word accepted in the present phase
(10_state R24), and the lines are as the done part left them; after INIT they are outputs, the receiver saw their levels, and
CLK and LOAD are high where the command has not yet written them (40_protocol R117). -/
def State.InsideInv (s : State) : Prop :=
  ∃ (w : Word) (s0 : State) (done : List Micro), s0.phase = s.phase ∧ commandOps w s0 = done ++ s.seq ∧ s.Done done ∧
    (s.phase = .configured ∨ s.phase = .sent →
      s.oe = ⟨true, true, true⟩ ∧ (∀ l, s.rx.level l = s.lv.get l) ∧ s.ObservationInv ∧
      s.lv.clk = (lastWrite .clk done).getD true ∧ s.lv.load = (lastWrite .load done).getD true)

/-- The lines' invariant between commands and inside them. -/
structure State.RunLinesInv (s : State) : Prop where
  between : s.busy = false → s.LinesInv
  inside : s.busy = true → s.InsideInv

/-- The state after some micro-operations that all go on; none if one of them ends the command (00_scope R12). -/
def goAll : List Micro → State → Option State
  | [], s => some s
  | m :: ms, s =>
    match m.run s with
    | .go t => goAll ms t
    | .stop _ => none

/-- The three writes of bit i (40_protocol R110). -/
def bitEvents (v : Wire) (i : Nat) : List Event :=
  [.wr .clk false, .wr .data (v.getLsbD i), .wr .clk true]

/-- ShiftBody's events: i = 15 down to 0 (40_protocol R110). -/
def shiftEvents (v : Wire) : List Event := (List.range 16).flatMap fun j => bitEvents v (15 - j)

/-- TxnBody's events (40_protocol R112). -/
def txnEvents (t : Byte × Byte) : List Event :=
  [.wr .load true] ++ shiftEvents (t.1 ++ t.2) ++ [.wr .load false, .wr .load true]

/-- The levels after some events (10_state R31). -/
def Lines.afterEvents (r : Lines) (es : List Event) : Lines :=
  es.foldl (fun r e => match e with | .wr l b => r.set l b | _ => r) r

/-- The rising edges of a line among some events, from a level before them (20_memory R59). -/
def risingEdges (l : Line) : Bool → List Event → Nat
  | _, [] => 0
  | lev, .wr l' b :: es => if l' = l then (if b && !lev then 1 else 0) + risingEdges l b es else risingEdges l lev es
  | lev, _ :: es => risingEdges l lev es

/-- The falling edges of a line among some events, from a level before them (20_memory R59). -/
def fallingEdges (l : Line) : Bool → List Event → Nat
  | _, [] => 0
  | lev, .wr l' b :: es => if l' = l then (if !b && lev then 1 else 0) + fallingEdges l b es else fallingEdges l lev es
  | lev, _ :: es => fallingEdges l lev es

/-- DATA is written only while CLK is low (40_protocol R117 (d)). -/
def dataWrittenOnlyAtClkLow : Lines → List Event → Bool
  | _, [] => true
  | r, .wr l b :: es => (l != .data || !r.clk) && dataWrittenOnlyAtClkLow (r.set l b) es
  | r, _ :: es => dataWrittenOnlyAtClkLow r es

/-- LOAD changes level only while CLK is high (40_protocol R117 (e)). -/
def loadMovesOnlyAtClkHigh : Lines → List Event → Bool
  | _, [] => true
  | r, .wr l b :: es => (l != .load || b == r.load || r.clk) && loadMovesOnlyAtClkHigh (r.set l b) es
  | r, _ :: es => loadMovesOnlyAtClkHigh r es

/-- Whether an event is a line write, of a given line. -/
def Event.isWriteTo (l : Line) : Event → Bool
  | .wr l' _ => l' == l
  | _ => false

/-- Whether an event is a line write. -/
def Event.isWrite : Event → Bool
  | .wr _ _ => true
  | _ => false

/-- Whether an event configures a line. -/
def Event.isCfg : Event → Bool
  | .cfg _ => true
  | _ => false

/-- Whether an event is a platform setup call. -/
def Event.isPlat : Event → Bool
  | .plat _ => true
  | _ => false

/-- Whether an event reads LOAD. -/
def Event.isRead : Event → Bool
  | .rd _ => true
  | _ => false

/-- The DATA levels the receiver samples at its CLK rising edges while it sees some writes (20_memory R63). -/
def samples : Receiver → List (Line × Bool) → List Bool
  | _, [] => []
  | r, w :: ws =>
    (if w.1 == .clk && w.2 && !r.clk then [r.data] else []) ++ samples (r.see w.1 w.2) ws

/-- The receiver after it saw some writes, in order (20_memory R60, R63). -/
def Receiver.seeAll (r : Receiver) (ws : List (Line × Bool)) : Receiver :=
  ws.foldl (fun r w => r.see w.1 w.2) r

/-- The state a fault leaves (60_exceptions R176), from a code, its exit code and the BADCHAR to hold. -/
def State.faultedWith (s : State) (c : FaultCode) (exit bad : Byte) : State :=
  { s with fcode := some c, exitCode := exit, badchar := bad, phase := .faulted, busy := false, seq := [] }

/-- Offering a word raises ILLEGAL_CMD in every live phase and does nothing else (42_control R162); cp is left
unconstrained (log 10). -/
def raisesIllegalCmd (w : Word) : Prop :=
  ∀ (s : State) (rest : List Input), s.busy = false → s.phase.live = true → s.inputs = .cmd w :: rest →
    ∃ t, step s = .next t ∧ t = { s.faultedWith .illegalCmd 1 s.badchar with inputs := rest, cp := t.cp }

/-- A DIGIT character of the ROM (30_encoding R92). -/
def isDigitChar (c : Byte) : Bool := romClass (crom c) == 1

/-- The digit code of a character (30_encoding R90, R91). -/
def codeOf (c : Byte) : Byte := (romCode (crom c)).zeroExtend 8

/-- The digit-producing characters of a string, rightmost first (41_encoder R145, R147). -/
def digitsOf (cs : List Byte) : List Byte := cs.reverse.filter isDigitChar

/-- The number of digit-producing characters at indices greater than `j`: the slot a '.' at `j` marks (41_encoder R147 (c)). -/
def pointSlot (cs : List Byte) (j : Nat) : Nat := ((cs.drop (j + 1)).filter isDigitChar).length

/-- Whether some '.' of the string marks slot `k` (41_encoder R147 (c)). -/
def hasPoint (cs : List Byte) (k : Nat) : Bool :=
  (List.range cs.length).any fun j => cs[j]? == some 0x2E && pointSlot cs j == k

/-- What slot `k` holds for a string (41_encoder R146 (c), R147 (a), (c)): the code of the (k+1)-th digit-producing
character from the right, 0 beyond, and bit 7 when a '.' marks the slot. -/
def slotOf (cs : List Byte) (k : Nat) : Byte :=
  (match (digitsOf cs)[k]? with
    | some c => codeOf c
    | none => 0) ||| (if hasPoint cs k then 0x80 else 0)

/-- A string the encoder takes without a fault: valid characters, at most 8 of them digit-producing, and no '.' to the
left of 8 of those (41_encoder R147). -/
def encodable (cs : List Byte) : Bool :=
  cs.all validChars.contains && decide ((digitsOf cs).length ≤ 8) && !hasPoint cs 8

/-- The twenty DIGIT rows with their codes, as opcode_table.json and 30_encoding R90 and R91 list them. -/
def digitRows : List (Instr × BitVec 4) :=
  [(.char0, 0), (.char1, 1), (.char2, 2), (.char3, 3), (.char4, 4),
   (.char5, 5), (.char6, 6), (.char7, 7), (.char8, 8), (.char9, 9)] ++
  [(.charMinus, 10), (.charE, 11), (.charLowerE, 11), (.charH, 12), (.charLowerH, 12),
   (.charL, 13), (.charLowerL, 13), (.charP, 14), (.charLowerP, 14), (.charSpace, 15)]

/-- The fourteen wire rows with their addresses (30_encoding R87). -/
def wireRows (d : Byte) : List (Instr × Byte) :=
  [(.wireNoop d, 0x00), (.wireDigit0 d, 0x01), (.wireDigit1 d, 0x02), (.wireDigit2 d, 0x03),
   (.wireDigit3 d, 0x04), (.wireDigit4 d, 0x05), (.wireDigit5 d, 0x06), (.wireDigit6 d, 0x07)] ++
  [(.wireDigit7 d, 0x08), (.wireDecodeMode d, 0x09), (.wireIntensity d, 0x0A),
   (.wireScanLimit d, 0x0B), (.wireShutdown d, 0x0C), (.wireDisplayTest d, 0x0F)]

/-- The rows of 30_encoding R82: match, mask, and the instruction with its operands (R84). -/
def cmdRows : List (Word × Word × (Word → Instr)) :=
  [(0x10000000, 0xFFFFFFFF, fun _ => .encClear),
   (0x20000000, 0xFFFFFF00, fun w => .encChar (bits 0 8 w)),
   (0x30000000, 0xFF000000, fun w => .init (bits 16 8 w) (bits 8 8 w) (bits 0 8 w)),
   (0x40000000, 0xFFFF0000, fun w => .shift16 (bits 0 16 w)),
   (0x50000000, 0xFFFF0000, fun w => .txn (bits 8 8 w) (bits 0 8 w)),
   (0x60000000, 0xFFFFFFFF, fun _ => .frameOut),
   (0x70000000, 0xFFFFFFFF, fun _ => .halt)]

/-- The events of a command that went from `s` to `t` (00_scope R13). -/
def eventsSince (s t : State) : List Event := t.trace.drop s.trace.length

/-- PLAT, CFG, WR and RD counts (40_protocol R119). -/
def eventCounts (es : List Event) : Nat × Nat × Nat × Nat :=
  (es.countP Event.isPlat, es.countP Event.isCfg, es.countP Event.isWrite, es.countP Event.isRead)

/-- Whether an input is the host's RESET. -/
def Input.isReset : Input → Bool
  | .reset _ => true
  | _ => false

/-- Commands and characters, the instructions the block itself executes; the wire rows are the receiver's. -/
def blockRuns (i : Instr) : Bool :=
  match encode i with
  | .cmd32 _ => true
  | .char8 _ => true
  | .wire16 _ => false

end Sys2Proof.Machine
end

