-- ==== Sys2Proof/Certificates/Slice0/Obligations.lean ====
section
/-! DEFINITION. The statements for the provers. Each names in its docstring the rule of spec/ it formalises; where a
clause is the model's own choice the docstring names the log entry. -/

open Sys2Proof Sys2Proof.Machine

/-! ## Encoding -/

/-- Decoding the encoding of a well-formed instruction gives it back, with every operand at every value
(30_encoding R82, R84, R87, R90 to R93). -/
def Obligations.DecodeEncodeRoundTrip : Prop :=
  ∀ i : Instr, i.WF = true → decode (encode i) = .ok i

/-- What the decoder accepts is the encoding of a well-formed instruction (30_encoding R97, R98). -/
def Obligations.EncodeDecodeRoundTrip : Prop :=
  ∀ (p : Packet) (i : Instr), decode p = .ok i → encode i = p ∧ i.WF = true

/-- 30_encoding R82: a word selects a row when (w & mask) = match, at most one row selects any word, and the
decoder gives the selected row's instruction and rejects a word no row selects. -/
def Obligations.CommandWordSelectsAtMostOneRow : Prop :=
  (∀ (w : Word) (i : Instr), decode (.cmd32 w) = .ok i ↔ ∃ r ∈ cmdRows, w &&& r.2.1 = r.1 ∧ r.2.2 w = i) ∧
  (∀ w : Word, (cmdRows.filter fun r => w &&& r.2.1 == r.1).length ≤ 1)

/-- Words written out from 30_encoding R82, R87, R90 to R93 and the vectors of 95_test_vectors decode to what they
stand for, and illegal ones are rejected. -/
def Obligations.SampleWordsDecode : Prop :=
  decode (.cmd32 0x10000000) = .ok .encClear ∧ decode (.cmd32 0x20000035) = .ok (.encChar 0x35) ∧
  decode (.cmd32 0x3007FF08) = .ok (.init 7 0xFF 8) ∧ decode (.cmd32 0x40008001) = .ok (.shift16 0x8001) ∧
  decode (.cmd32 0x50000C01) = .ok (.txn 0x0C 0x01) ∧ decode (.cmd32 0x60000000) = .ok .frameOut ∧
  decode (.cmd32 0x70000000) = .ok .halt ∧ decode (.wire16 0x0B07) = .ok (.wireScanLimit 7) ∧
  decode (.char8 0x65) = .ok .charLowerE ∧ decode (.char8 0x78) = .ok (.charInvalid 0x78) ∧
  decode (.cmd32 0x51000C00) = .error (.reservedBits 0x51000C00) ∧
  decode (.cmd32 0x80000000) = .error (.unknownOp 8) ∧ decode (.wire16 0x0D00) = .error (.unnamedAddress 0x0D)

/-- 30_encoding R90: the ten decimal digits are DIGIT with code C - 0x30. -/
def Obligations.DecimalDigitRomEntries : Prop :=
  ∀ c : Byte, 0x30 ≤ c → c ≤ 0x39 → crom c = 1#2 ++ (bits 0 4 (c - 0x30) : BitVec 4)

/-- 30_encoding R91, R92, R93: the symbols' codes, '.' as DP, every other character INVALID, entry 0x00; 20
characters are digit-producing and 235 are INVALID. -/
def Obligations.SymbolRomEntries : Prop :=
  crom 0x2D = 0x1A ∧ crom 0x45 = 0x1B ∧ crom 0x65 = 0x1B ∧ crom 0x48 = 0x1C ∧ crom 0x68 = 0x1C ∧
  crom 0x4C = 0x1D ∧ crom 0x6C = 0x1D ∧ crom 0x50 = 0x1E ∧ crom 0x70 = 0x1E ∧ crom 0x20 = 0x1F ∧ crom 0x2E = 0x20 ∧
  (∀ c : Byte, validChars.contains c = false → crom c = 0) ∧
  ((List.range 256).countP fun n => isDigitChar (BitVec.ofNat 8 n)) = 20 ∧
  ((List.range 256).countP fun n => crom (BitVec.ofNat 8 n) == 0) = 235

/-! ## The step -/

/-- An accepted offer of a unit that decodes to `i` runs `i` with BUSY = 1 (42_control R162, R163), and cp advances by one when it
has ended (10_state R23; that a fault ends it for cp too is log 10). The `char` offer is log 13. -/
def Obligations.StepRunsTheDecodedCommand : Prop :=
  ∀ (s : State) (rest : List Input) (i : Instr), s.busy = false → s.phase.live = true →
    (∀ w, s.inputs = .cmd w :: rest → decode (.cmd32 w) = .ok i →
      ∃ t, exec i { s with inputs := rest, busy := true } = .next t ∧ step s = .next { t with cp := s.cp + 1 }) ∧
    (∀ c, s.inputs = .char c :: rest → decode (.char8 c) = .ok i →
      ∃ t, exec i { s with inputs := rest, busy := true } = .next t ∧ step s = .next { t with cp := s.cp + 1 })

/-- A LOAD rising edge on an undriven pad runs the wire word in RX_SR, and latches it where its address has no name; any other level
on an undriven pad is seen and does no more (20_memory R63, R64, R65, R68). That a step runs the wire word is the model's reading
(log 14). -/
def Obligations.PadEdgeRunsTheWireWord : Prop :=
  ∀ (s : State) (rest : List Input),
    (∀ i, s.oe.load = false → s.rx.load = false → s.inputs = .pad .load true :: rest → decode (.wire16 s.rx.sr) = .ok i →
      step s = exec i { s with inputs := rest, rx := { s.rx with load := true } }) ∧
    (∀ e, s.oe.load = false → s.rx.load = false → s.inputs = .pad .load true :: rest → decode (.wire16 s.rx.sr) = .error e →
      step s = .next { s with inputs := rest, rx := { s.rx.latch s.rx.sr with load := true } }) ∧
    (∀ b, s.oe.load = false → s.rx.load = true ∨ b = false → s.inputs = .pad .load b :: rest →
      step s = .next { s with inputs := rest, rx := { s.rx with load := b } }) ∧
    (∀ b, s.oe.data = false → s.inputs = .pad .data b :: rest →
      step s = .next { s with inputs := rest, rx := { s.rx with data := b } }) ∧
    (∀ b, s.oe.clk = false → s.inputs = .pad .clk b :: rest →
      step s = .next
        { s with inputs := rest,
                 rx := { s.rx with
                   sr := if s.rx.clk = false ∧ b = true then (bits 0 15 s.rx.sr : BitVec 15) ++ BitVec.ofBool s.rx.data
                         else s.rx.sr,
                   clk := b } })

/-- 42_control R162: in any live phase a word no row selects raises ILLEGAL_CMD and does nothing else, whatever the
phase; any other word runs its command. cp is left unconstrained (log 10). -/
def Obligations.UnselectedWordRaisesIllegalCmd : Prop :=
  ∀ (s : State) (w : Word) (rest : List Input), s.busy = false → s.phase.live = true → s.inputs = .cmd w :: rest →
    (∀ e, decode (.cmd32 w) = .error e →
      ∃ t, step s = .next t ∧ t = { s.faultedWith .illegalCmd 1 s.badchar with inputs := rest, cp := t.cp }) ∧
    (∀ i, decode (.cmd32 w) = .ok i →
      ∃ t u, exec i { s with inputs := rest, busy := true } = .next t ∧ step s = .next u ∧ u = { t with cp := u.cp })

/-- An offer of a character is the offer of ENC_CHAR of it (30_encoding R84, 92 D27; the `char` input is log 13). -/
def Obligations.CharOfferIsEncChar : Prop :=
  ∀ (s : State) (c : Byte) (rest : List Input), s.busy = false → s.phase.live = true →
    step { s with inputs := .char c :: rest } = step { s with inputs := .cmd (0x200000#24 ++ c) :: rest }

/-- `withFetchWord` places a unit so that the very next step runs it, a command or a character in a live phase of a busy block (the
present phase where it is live), and leaves the frame, the cursor, LV, the ports and the trace
as they are; cp counts what has ended (log 17). -/
def Obligations.PlacedUnitRunsNext : Prop :=
  ∀ (s : State) (nbits w : Nat) (i : Instr), decodeTableWord nbits w = some i →
    ∃ u t v, exec i u = .next t ∧ step (s.withFetchWord nbits w) = .next v ∧ v = { t with cp := v.cp } ∧
      u.inputs = s.inputs ∧ u.frame = s.frame ∧ u.cur = s.cur ∧
      u.lv = s.lv ∧ u.platOk = s.platOk ∧ u.loadI = s.loadI ∧ u.trace = s.trace ∧
      (s.phase.live = true ∨ nbits = 16 → u.phase = s.phase) ∧
      (nbits ≠ 16 → u.phase.live = true ∧ u.busy = true)

/-- A step stops only where an input drives a line the block has configured, which 42_control R164 assumes never to
happen (log 15), and it stops there; no step is refused. -/
def Obligations.StepStopsOnlyOnLineContention : Prop :=
  ∀ s : State,
    (∀ r, step s = .fault r ↔ ∃ l b rest, s.inputs = .pad l b :: rest ∧ s.oe.get l = true ∧ r = .lineContention l) ∧
    (∀ r, step s ≠ .refused r)

/-- The platform's answers are port levels and nothing else (10_state R36, 42_control R164, log 4). -/
def Obligations.PortInputsSetThePorts : Prop :=
  ∀ (s : State) (b : Bool) (rest : List Input),
    (s.inputs = .plat b :: rest → step s = .next { s with inputs := rest, platOk := b }) ∧
    (s.inputs = .loadIn b :: rest → step s = .next { s with inputs := rest, loadI := b })

/-- 10_state R23 and 42_control R166 (a): cp advances by one when an accepted command ends, offered in this step or in progress
before it, and at no other time: a paused command and one that RESET cuts short leave it. That a fault ends a command for cp too,
and that RESET leaves cp, is the model's reading (log 10). -/
def Obligations.CommandPointerCountsAcceptedCommands : Prop :=
  ∀ s t : State, step s = .next t →
    (∀ d rest, s.inputs = .reset d :: rest → t.cp = s.cp) ∧
    ((∀ x rest, s.inputs = x :: rest → x.isReset = false) →
      t.cp = s.cp +
        (if t.busy = false ∧ (s.busy = true ∨ s.offered.isSome = true ∧ s.phase.live = true) then 1 else 0))

/-- 42_control R163: an offer made while BUSY = 1 waits; the command in progress runs to its end, which clears BUSY
and counts in cp (10_state R23; that cp counts it at its end, by a fault too, is log 10). That one step runs it to its
end is log 12. -/
def Obligations.OfferWaitsWhileBusy : Prop :=
  ∀ s : State, s.busy = true → s.offered.isSome = true →
    ∃ t, step s = .next t ∧ t = { complete s.seq s with cp := s.cp + 1 } ∧ t.busy = false ∧ t.inputs = s.inputs

/-- 42_control R161 ("none"): in HALTED and FAULTED the block makes no step: commands change nothing, and an offer is
passed over (that the schedule goes on is log 11). -/
def Obligations.RunOverAcceptsNothing : Prop :=
  ∀ s : State, s.phase.live = false → s.busy = false → s.seq = [] →
    (∀ i, blockRuns i = true → exec i s = .next s) ∧
    (∀ x rest, s.inputs = x :: rest → s.offered.isSome = true → step s = .next { s with inputs := rest })

/-- 60_exceptions R177 (and R27): FAULTED holds until RESET, FCODE with it; so does HALTED. Only the ports, the schedule and the
receiver may change meanwhile. -/
def Obligations.RunOverHoldsUntilReset : Prop :=
  ∀ s t : State, s.phase.live = false → s.busy = false → s.seq = [] →
    (∀ x rest, s.inputs = x :: rest → x.isReset = false) → step s = .next t →
    t = { s with inputs := t.inputs, platOk := t.platOk, loadI := t.loadI, rx := t.rx }

/-! ## Reset -/

/-- 10_state R40, 70_reset R200: RESET in any state, inside a command too, leaves every piece of block state at its reset
value, LV at the draw, and records no event. That the receiver's start is drawn with it is log 3, that cp, the ports and the trace stay is
log 10 and log 18. -/
def Obligations.ResetRestoresBlockState : Prop :=
  ∀ (s : State) (d : Draw) (rest : List Input), s.inputs = .reset d :: rest →
    step s = .next { frame := Vector.replicate 8 0, cur := 0, phase := .encode, busy := false, seq := [], fcode := none,
                     badchar := 0, exitCode := 0, oe := ⟨false, false, false⟩, lv := d.lv, platOk := s.platOk,
                     loadI := s.loadI, cp := s.cp, trace := s.trace, inputs := rest, rx := d.rx, obsStart := none }

/-- 10_state R40: the machine starts with the block at its reset values and an empty trace (00_scope R13). LV and the
receiver, which the spec leaves to a draw, are not spoken of. -/
def Obligations.StartStateIsTheResetState : Prop :=
  State.reset.frame = Vector.replicate 8 0 ∧ State.reset.cur = 0 ∧ State.reset.phase = .encode ∧
  State.reset.busy = false ∧ State.reset.seq = [] ∧ State.reset.fcode = none ∧ State.reset.badchar = 0 ∧
  State.reset.exitCode = 0 ∧ State.reset.oe = ⟨false, false, false⟩ ∧ State.reset.status = 0 ∧
  State.reset.framePort = 0 ∧ State.reset.trace = [] ∧ State.reset.cp = 0

/-! ## The encoder -/

/-- 41_encoder R140: ENC_CLEAR in ENCODE empties the frame and resets the cursor; it raises SEQUENCE in the other live phases; a
word with OP 0x1 is this command when w[27:0] = 0 and else raises ILLEGAL_CMD. -/
def Obligations.EncClearEmptiesTheFrame : Prop :=
  (∀ s : State, s.phase = .encode →
    exec .encClear s = .next { s with frame := Vector.replicate 8 0, cur := 0, busy := false, seq := [] }) ∧
  (∀ s : State, s.phase = .configured ∨ s.phase = .sent →
    exec .encClear s = .next (s.faultedWith .sequence 1 s.badchar)) ∧
  (∀ w : Word, bits 28 4 w = 1#4 → if bits 0 28 w = 0 then decode (.cmd32 w) = .ok .encClear else raisesIllegalCmd w)

/-- 41_encoder R141, R142: a DIGIT character ORs its code into F[CUR] and advances CUR. -/
def Obligations.EncCharWritesADigit : Prop :=
  ∀ (s : State) (c : Byte) (h : s.cur.toNat < 8), s.phase = .encode → isDigitChar c = true →
    exec (.encChar c) s = .next
      { s with frame := s.frame.set s.cur.toNat (s.frame[s.cur.toNat] ||| codeOf c) h, cur := s.cur + 1,
               busy := false, seq := [] }

/-- 41_encoder R142, 30_encoding R90, R91: each DIGIT row ORs its own code into F[CUR] and advances CUR. -/
def Obligations.DigitRowsWriteTheirCodes : Prop :=
  ∀ (s : State) (h : s.cur.toNat < 8), s.phase = .encode → ∀ r ∈ digitRows,
    exec r.1 s = .next
      { s with frame := s.frame.set s.cur.toNat (s.frame[s.cur.toNat] ||| r.2.zeroExtend 8) h, cur := s.cur + 1,
               busy := false, seq := [] }

/-- 41_encoder R143: '.' sets bit 7 of F[CUR] by OR and leaves the cursor, as ENC_CHAR and as its row. -/
def Obligations.DotMarksTheCurrentSlot : Prop :=
  ∀ (s : State) (h : s.cur.toNat < 8), s.phase = .encode → ∀ i ∈ [Instr.encChar 0x2E, Instr.charDot],
    exec i s = .next
      { s with frame := s.frame.set s.cur.toNat (s.frame[s.cur.toNat] ||| 0x80#8) h, busy := false, seq := [] }

/-- 41_encoder R144: an INVALID character raises BAD_CHAR, records it in BADCHAR, and changes neither F nor CUR; every byte from
0x80 up, NUL and every letter but E, H, L and P is INVALID. -/
def Obligations.InvalidCharacterRaisesBadChar : Prop :=
  (∀ (s : State) (c : Byte), s.phase = .encode → romClass (crom c) = 0 →
    exec (.encChar c) s = .next (s.faultedWith .badChar 1 c)) ∧
  (∀ (s : State) (c : Byte), s.phase = .encode → exec (.charInvalid c) s = .next (s.faultedWith .badChar 1 c)) ∧
  (∀ c : Byte, c = 0 ∨ 0x80 ≤ c ∨
    ((0x41 ≤ c ∧ c ≤ 0x5A ∨ 0x61 ≤ c ∧ c ≤ 0x7A) ∧ c ∉ [0x45#8, 0x48, 0x4C, 0x50, 0x65, 0x68, 0x6C, 0x70]) →
    romClass (crom c) = 0)

/-- 41_encoder R142, R143: with CUR = 8 a digit-producing character raises TOO_LONG and '.' raises DP_OVERFLOW; F and CUR
stay. -/
def Obligations.FullFrameRefusesCharacters : Prop :=
  ∀ s : State, s.phase = .encode → s.cur = 8 →
    (∀ c, isDigitChar c = true → exec (.encChar c) s = .next (s.faultedWith .tooLong 1 s.badchar)) ∧
    (∀ r ∈ digitRows, exec r.1 s = .next (s.faultedWith .tooLong 1 s.badchar)) ∧
    exec (.encChar 0x2E) s = .next (s.faultedWith .dpOverflow 1 s.badchar) ∧
    exec .charDot s = .next (s.faultedWith .dpOverflow 1 s.badchar)

/-- ENC_CHAR's ROM lookup and the character rows of the opcode table agree, in every state (41_encoder R141,
30_encoding R89 to R93). -/
def Obligations.EncCharActsAsItsCharacterRow : Prop :=
  ∀ (c : Byte) (s : State), exec (.encChar c) s = exec (decodeChar c) s

/-- 41_encoder R147 (a) over the expansion of 30_encoding R95: a string of at most 8 digit-producing characters, without '.',
leaves slot k with the code of the character at L-1-k and 0 beyond, and makes no event. -/
def Obligations.StringEncodesRightToLeft : Prop :=
  ∀ (cs : List Byte) (s : State), s.phase = .encode → (∀ c ∈ cs, isDigitChar c = true) → cs.length ≤ 8 →
    ∃ f : Vector Byte 8, runInstrs (encstr cs) s =
        { s with frame := f, cur := BitVec.ofNat 4 cs.length, busy := false, seq := [] } ∧
      ∀ k : Fin 8, f[k] = if h : k.val < cs.length then codeOf (cs[cs.length - 1 - k.val]'(by omega)) else 0

/-- 41_encoder R147 (d) over the expansion of 30_encoding R95: more than 8 digit-producing characters raise TOO_LONG at the
9th from the right, with the last 8 in the frame and no event. -/
def Obligations.LongStringRaisesTooLong : Prop :=
  ∀ (cs : List Byte) (s : State), s.phase = .encode → (∀ c ∈ cs, isDigitChar c = true) → (hl : 9 ≤ cs.length) →
    ∃ f : Vector Byte 8, runInstrs (encstr cs) s =
        { s.faultedWith .tooLong 1 s.badchar with frame := f, cur := 8 } ∧
      ∀ k : Fin 8, f[k] = codeOf (cs[cs.length - 1 - k.val]'(by omega))

/-- 41_encoder R147 (a), (c) over the expansion of 30_encoding R95: any string the encoder takes, '.' included, leaves each slot
with the code of its character and with bit 7 where a '.' marks it, CUR counting the digit-producing characters, and makes no event. -/
def Obligations.PointedStringMarksItsSlots : Prop :=
  ∀ (cs : List Byte) (s : State), s.phase = .encode → encodable cs = true →
    ∃ f : Vector Byte 8, runInstrs (encstr cs) s =
        { s with frame := f, cur := BitVec.ofNat 4 (digitsOf cs).length, busy := false, seq := [] } ∧
      ∀ k : Fin 8, f[k] = slotOf cs k.val

/-- 60_exceptions R175, 41_encoder R145, R147 (d): of several errors in a string the first met from the right is raised, whatever stands
to the left of it, in the state that the characters to its right leave. -/
def Obligations.FirstErrorFromTheRightIsRaised : Prop :=
  ∀ (pre suf : List Byte) (c : Byte) (s u : State), runInstrs (encstr suf) s = u → u.phase = .encode →
    (romClass (crom c) = 0 → runInstrs (encstr (pre ++ c :: suf)) s = u.faultedWith .badChar 1 c) ∧
    (isDigitChar c = true → u.cur = 8 →
      runInstrs (encstr (pre ++ c :: suf)) s = u.faultedWith .tooLong 1 u.badchar) ∧
    (c = 0x2E → u.cur = 8 → runInstrs (encstr (pre ++ c :: suf)) s = u.faultedWith .dpOverflow 1 u.badchar)

/-! ## The protocol driver -/

/-- 40_protocol R110: ShiftBody makes 48 line writes, to CLK and DATA only, in the order of the rule, with 16 CLK rising edges
whatever CLK was, and the receiver samples v[15], ..., v[0] at them. -/
def Obligations.ShiftBodyWrites : Prop :=
  ∀ v : Wire,
    ((shiftWrites v).map fun w => Event.wr w.1 w.2) = shiftEvents v ∧ (shiftWrites v).length = 48 ∧
    (∀ w ∈ shiftWrites v, w.1 ≠ .load) ∧ (∀ lev, risingEdges .clk lev (shiftEvents v) = 16) ∧
    (∀ r, samples r (shiftWrites v) = (List.range 16).map fun j => v.getLsbD (15 - j))

/-- 40_protocol R112: TxnBody makes 51 line writes, 3 of them to LOAD; from LOAD high it has one LOAD falling and one LOAD rising
edge, both after the 16 CLK rising edges. -/
def Obligations.TxnBodyWrites : Prop :=
  ∀ a d : Byte,
    ((txnWrites a d).map fun w => Event.wr w.1 w.2) = txnEvents (a, d) ∧ (txnWrites a d).length = 51 ∧
    (txnEvents (a, d)).countP (Event.isWriteTo .load) = 3 ∧
    risingEdges .load true (txnEvents (a, d)) = 1 ∧ fallingEdges .load true (txnEvents (a, d)) = 1 ∧
    risingEdges .load true ((txnEvents (a, d)).take 49) = 0 ∧ fallingEdges .load true ((txnEvents (a, d)).take 49) = 0 ∧
    (∀ lev, risingEdges .clk lev ((txnEvents (a, d)).take 49) = 16)

/-- 40_protocol R111: SHIFT16 shifts V out without LOAD and latches nothing, RX_SR becomes V; SEQUENCE in ENCODE; a word
with OP 0x4 is this command with V = w[15:0] when w[27:16] = 0 and else raises ILLEGAL_CMD. -/
def Obligations.Shift16SendsSixteenBits : Prop :=
  (∀ (s : State) (v : Wire), s.phase = .configured ∨ s.phase = .sent →
    exec (.shift16 v) s = .next
      { s with lv := { s.lv with data := v.getLsbD 0, clk := true }, trace := s.trace ++ shiftEvents v,
               rx := { s.rx with sr := v, data := v.getLsbD 0, clk := true }, busy := false, seq := [] }) ∧
  (∀ (s : State) (v : Wire), s.phase = .encode →
    exec (.shift16 v) s = .next (s.faultedWith .sequence 1 s.badchar)) ∧
  (∀ w : Word, bits 28 4 w = 4#4 →
    if bits 16 12 w = 0 then decode (.cmd32 w) = .ok (.shift16 (bits 0 16 w)) else raisesIllegalCmd w)

/-- 40_protocol R113, R118: TXN sends `(A << 8) | D`, and a receiver that last saw LOAD high latches exactly that word,
whatever RX_SR held; SEQUENCE in ENCODE; a word with OP 0x5 is this command with A = w[15:8], D = w[7:0] when w[27:16] = 0
and else raises ILLEGAL_CMD. -/
def Obligations.TxnLatchesExactlyItsWord : Prop :=
  (∀ (s : State) (a d : Byte), s.phase = .configured ∨ s.phase = .sent → s.rx.load = true →
    exec (.txn a d) s = .next
      { s with lv := ⟨d.getLsbD 0, true, true⟩, trace := s.trace ++ txnEvents (a, d),
               rx := { sr := a ++ d, data := d.getLsbD 0, clk := true, load := true, log := s.rx.log ++ [a ++ d],
                       reg := s.rx.reg.set a.toNat d a.isLt },
               busy := false, seq := [] }) ∧
  (∀ (s : State) (a d : Byte), s.phase = .configured ∨ s.phase = .sent →
    ∃ t, exec (.txn a d) s = .next t ∧
      t = { s with lv := ⟨d.getLsbD 0, true, true⟩, trace := s.trace ++ txnEvents (a, d), rx := t.rx,
                   busy := false, seq := [] }) ∧
  (∀ (s : State) (a d : Byte), s.phase = .encode →
    exec (.txn a d) s = .next (s.faultedWith .sequence 1 s.badchar)) ∧
  (∀ w : Word, bits 28 4 w = 5#4 →
    if bits 16 12 w = 0 then decode (.cmd32 w) = .ok (.txn (bits 8 8 w) (bits 0 8 w)) else raisesIllegalCmd w)

/-- 40_protocol R114, R115: INIT with N <= 7, K <= 15, PLAT_OK = 1 and LOAD_I = 1 configures the three lines, sends the No-Op and
the five configuration words in order, and enters CONFIGURED. A receiver that last saw LOAD low latches its RX_SR first
(20_memory R65). `obsStart` is the model's own field (log 18). -/
def Obligations.InitConfiguresTheController : Prop :=
  ∀ (s : State) (n m k : Byte), s.phase = .encode → n ≤ 7 → k ≤ 15 → s.platOk = true → s.loadI = true →
    ∃ t, exec (.init n m k) s = .next t ∧
      t = { s with
            phase := .configured, oe := ⟨true, true, true⟩, lv := ⟨true, true, true⟩,
            trace := s.trace ++
              [.plat true, .cfg .data, .cfg .clk, .cfg .load, .wr .load true, .wr .clk false, .wr .data false, .rd true] ++
              [(0x00, 0x00), (0x0B, n), (0x09, m), (0x0F, 0x00), (0x0A, k), (0x0C, 0x01)].flatMap txnEvents,
            rx := t.rx, obsStart := some (s.rx.log.length + if s.rx.load then 0 else 1), busy := false, seq := [] } ∧
      t.rx.log = s.rx.log ++ (if s.rx.load then [] else [s.rx.sr]) ++
        [0x0000, 0x0B#8 ++ n, 0x09#8 ++ m, 0x0F00, 0x0A#8 ++ k, 0x0C01] ∧
      t.observedWords = [0x0000, 0x0B#8 ++ n, 0x09#8 ++ m, 0x0F00, 0x0A#8 ++ k, 0x0C01] ∧
      t.rx.sr = 0x0C01 ∧ t.rx.data = true ∧ t.rx.clk = true ∧ t.rx.load = true ∧
      t.rx.reg[0x00] = 0x00 ∧ t.rx.reg[0x0B] = n ∧ t.rx.reg[0x09] = m ∧ t.rx.reg[0x0F] = 0x00 ∧
      t.rx.reg[0x0A] = k ∧ t.rx.reg[0x0C] = 0x01 ∧
      (∀ x : Fin 256, x.val ∉ [0x00, 0x09, 0x0A, 0x0B, 0x0C, 0x0F] →
        s.rx.load = true ∨ x.val ≠ (bits 8 8 s.rx.sr : Byte).toNat → t.rx.reg[x] = s.rx.reg[x])

/-- 40_protocol R114, 60_exceptions R172, R174: an INIT out of bounds faults before any line effect, digitCount first. The
exit codes are the OPEN parameters (log 5). -/
def Obligations.InitBoundFaultsTouchNoLine : Prop :=
  ∀ (s : State) (n m k : Byte), s.phase = .encode →
    (7 < n → exec (.init n m k) s = .next (s.faultedWith .cfgDigitcount Config.exitCfgDigitcount s.badchar)) ∧
    (n ≤ 7 → 15 < k → exec (.init n m k) s = .next (s.faultedWith .cfgIntensity Config.exitCfgIntensity s.badchar))

/-- 40_protocol R114, 60_exceptions R174: with the bounds met, PLAT_OK = 0 raises PLATFORM after the PLAT event alone, and LOAD_I = 0
raises LOADBACK with the lines configured and LOAD = 1, CLK = 0, DATA = 0; the receiver saw step 2's writes. `obsStart` is the
model's own field (log 18). -/
def Obligations.InitEnvironmentFaults : Prop :=
  ∀ (s : State) (n m k : Byte), s.phase = .encode → n ≤ 7 → k ≤ 15 →
    (s.platOk = false → exec (.init n m k) s = .next
      { s.faultedWith .platform 1 s.badchar with trace := s.trace ++ [.plat false] }) ∧
    (s.platOk = true → s.loadI = false → ∃ t, exec (.init n m k) s = .next t ∧
      t = { s.faultedWith .loadback 2 s.badchar with
            oe := ⟨true, true, true⟩, lv := ⟨false, false, true⟩,
            trace := s.trace ++ [.plat true, .cfg .data, .cfg .clk, .cfg .load, .wr .load true, .wr .clk false,
              .wr .data false, .rd false],
            rx := t.rx, obsStart := t.obsStart } ∧
      t.rx.log = s.rx.log ++ (if s.rx.load then [] else [s.rx.sr]) ∧ t.observedWords = [] ∧
      t.rx.reg = (if s.rx.load then s.rx.reg
        else s.rx.reg.set (bits 8 8 s.rx.sr : Byte).toNat (bits 0 8 s.rx.sr) (bits 8 8 s.rx.sr : Byte).isLt) ∧
      t.rx.sr = s.rx.sr ∧ t.rx.data = false ∧ t.rx.clk = false ∧ t.rx.load = true)

/-- 40_protocol R116, 20_memory R53: FRAME_OUT sends every slot s, unchanged, to address s + 1, in order, and enters SENT; F,
CUR and OE stay; SEQUENCE in ENCODE; a word with OP 0x6 is this command when w[27:0] = 0 and else raises ILLEGAL_CMD. -/
def Obligations.FrameOutSendsEverySlot : Prop :=
  (∀ s : State, s.phase = .configured ∨ s.phase = .sent →
    ∃ t, exec .frameOut s = .next t ∧
      t = { s with
            phase := .sent, lv := ⟨s.frame[7].getLsbD 0, true, true⟩,
            trace := s.trace ++ ((List.finRange 8).flatMap fun i => txnEvents (BitVec.ofNat 8 (i.val + 1), s.frame[i])),
            rx := t.rx, busy := false, seq := [] } ∧
      t.rx.log = s.rx.log ++ (if s.rx.load then [] else [s.rx.sr]) ++
        ((List.finRange 8).map fun i => (BitVec.ofNat 8 (i.val + 1) : Byte) ++ s.frame[i]) ∧
      (∀ i : Fin 8, t.rx.reg[i.val + 1] = s.frame[i]) ∧
      (∀ x : Fin 256, x.val = 0 ∨ 8 < x.val → s.rx.load = true ∨ x.val ≠ (bits 8 8 s.rx.sr : Byte).toNat →
        t.rx.reg[x] = s.rx.reg[x])) ∧
  (∀ s : State, s.phase = .encode → exec .frameOut s = .next (s.faultedWith .sequence 1 s.badchar)) ∧
  (∀ w : Word, bits 28 4 w = 6#4 → if bits 0 28 w = 0 then decode (.cmd32 w) = .ok .frameOut else raisesIllegalCmd w)

/-- 40_protocol R119: the events of each command that completes without a fault, and its rising edges. TXN and FRAME_OUT start from
LOAD high (R117 (a)); INIT's extra LOAD edge is there exactly when LOAD was low before step 2. -/
def Obligations.EventCountsPerCommand : Prop :=
  (∀ (s t : State) (v : Wire), exec (.shift16 v) s = .next t → t.phase = .configured ∨ t.phase = .sent →
    eventCounts (eventsSince s t) = (0, 0, 48, 0) ∧
    ∀ lev, risingEdges .clk lev (eventsSince s t) = 16 ∧ risingEdges .load lev (eventsSince s t) = 0) ∧
  (∀ (s t : State) (a d : Byte), exec (.txn a d) s = .next t → t.phase = .configured ∨ t.phase = .sent →
    eventCounts (eventsSince s t) = (0, 0, 51, 0) ∧
    (∀ lev, risingEdges .clk lev (eventsSince s t) = 16) ∧ risingEdges .load true (eventsSince s t) = 1) ∧
  (∀ (s t : State) (n m k : Byte), exec (.init n m k) s = .next t → s.phase = .encode → t.phase = .configured →
    eventCounts (eventsSince s t) = (1, 3, 309, 1) ∧
    ∀ lev, risingEdges .clk lev (eventsSince s t) = 96 ∧
      risingEdges .load lev (eventsSince s t) = 6 + if lev then 0 else 1) ∧
  (∀ s t : State, exec .frameOut s = .next t → t.phase = .sent → s.phase = .configured ∨ s.phase = .sent →
    eventCounts (eventsSince s t) = (0, 0, 408, 0) ∧
    (∀ lev, risingEdges .clk lev (eventsSince s t) = 128) ∧ risingEdges .load true (eventsSince s t) = 8) ∧
  (∀ (s t : State) (i : Instr), i = .encClear ∨ i = .halt ∨ (∃ c, i = .encChar c) → exec i s = .next t →
    eventsSince s t = [])

/-- 40_protocol R117 (d), (e): every command writes DATA only while CLK is low, and LOAD changes level only while CLK is high,
but for INIT step 2 (its first 8 events). For the transactions LOAD starts high (R117 (a)). -/
def Obligations.LinesMoveOnlyAtTheirClockLevel : Prop :=
  (∀ (i : Instr) (s t : State), exec i s = .next t →
    t.trace = s.trace ++ eventsSince s t ∧ dataWrittenOnlyAtClkLow s.lv (eventsSince s t) = true) ∧
  (∀ (i : Instr) (s t : State), (∀ n m k, i ≠ .init n m k) → s.lv.load = true → exec i s = .next t →
    loadMovesOnlyAtClkHigh s.lv (eventsSince s t) = true) ∧
  (∀ (n m k : Byte) (s t : State), exec (.init n m k) s = .next t →
    loadMovesOnlyAtClkHigh (s.lv.afterEvents ((eventsSince s t).take 8)) ((eventsSince s t).drop 8) = true)

/-! ## Control -/

/-- 42_control R160: HALT in any live phase sets EXIT to 0 and PHASE to HALTED and changes nothing else; it never raises
SEQUENCE; when the run is over it is no step; a word with OP 0x7 is this command when w[27:0] = 0 and else raises
ILLEGAL_CMD. -/
def Obligations.HaltEndsTheRun : Prop :=
  (∀ s : State, s.phase.live = true →
    exec .halt s = .next { s with phase := .halted, exitCode := 0, busy := false, seq := [] }) ∧
  (∀ s : State, s.phase.live = false → s.busy = false → s.seq = [] → exec .halt s = .next s) ∧
  (∀ w : Word, bits 28 4 w = 7#4 → if bits 0 28 w = 0 then decode (.cmd32 w) = .ok .halt else raisesIllegalCmd w)

/-- 42_control R161: a command the current live phase does not allow raises SEQUENCE and does nothing else: the encoder's commands,
INIT and the characters outside ENCODE, and SHIFT16, TXN and FRAME_OUT in ENCODE. -/
def Obligations.OutOfPhaseCommandRaisesSequence : Prop :=
  ∀ (i : Instr) (s : State),
    (s.phase = .configured ∨ s.phase = .sent → blockRuns i = true → i ≠ .frameOut → i ≠ .halt →
      (∀ v, i ≠ .shift16 v) → (∀ a d, i ≠ .txn a d) → exec i s = .next (s.faultedWith .sequence 1 s.badchar)) ∧
    (s.phase = .encode → i = .frameOut ∨ (∃ v, i = .shift16 v) ∨ (∃ a d, i = .txn a d) →
      exec i s = .next (s.faultedWith .sequence 1 s.badchar))

/-! ## Faults and status -/

/-- 60_exceptions R176: fault entry does exactly this: FCODE, EXIT, PHASE, BADCHAR for BAD_CHAR only, and BUSY; and it is
precise: every micro-operation before the raise took effect, whatever they are, and nothing after it takes place. So for a raise that
stands alone, for one that a micro-operation's own check makes (PLATFORM and LOADBACK of 40_protocol R114, TOO_LONG and DP_OVERFLOW
of 41_encoder R142 and R143, with the exit codes of R172; that the check is part of the micro-operation is the model's choice, log 9),
and for any micro-operation that ends the command. -/
def Obligations.FaultEntryRecordsAndStops : Prop :=
  ∀ (s : State) (c : FaultCode) (info : Byte),
    s.raise c info = s.faultedWith c c.exit (if c = .badChar then info else s.badchar) ∧
    (∀ (ops ms : List Micro) (t : State), goAll ops s = some t →
      complete (ops ++ .raise c info :: ms) s = t.faultedWith c c.exit (if c = .badChar then info else t.badchar) ∧
      (∀ (m : Micro) (u : State), m.run t = .stop u → complete (ops ++ m :: ms) s = u.idle) ∧
      (t.platOk = false → complete (ops ++ .platformSetup :: ms) s =
        { t.faultedWith .platform 1 t.badchar with trace := t.trace ++ [.plat false] }) ∧
      (t.loadI = false → complete (ops ++ .readLoad :: ms) s =
        { t.faultedWith .loadback 2 t.badchar with trace := t.trace ++ [.rd false] }) ∧
      (t.cur = 8 → ∀ code, complete (ops ++ .encodeDigit code :: ms) s = t.faultedWith .tooLong 1 t.badchar) ∧
      (t.cur = 8 → complete (ops ++ .encodeDp :: ms) s = t.faultedWith .dpOverflow 1 t.badchar)) ∧
    ∀ (ws : List (Line × Bool)) (ms : List Micro),
      complete (writeOps ws ++ .raise c info :: ms) s =
        (runOps (writeOps ws) s).faultedWith c c.exit (if c = .badChar then info else s.badchar)

/-- 60_exceptions R171 (the FCODE column) and R172 (the EXIT column). The two bound codes are the OPEN parameters (log 5). -/
def Obligations.FaultCodeTable : Prop :=
  [FaultCode.badChar, .tooLong, .dpOverflow, .cfgDigitcount, .cfgIntensity, .platform, .loadback, .sequence,
    .illegalCmd].map (fun c => (fcodeBits (some c), c.exit)) =
  [(1, 1), (2, 1), (3, 1), (4, Config.exitCfgDigitcount), (5, Config.exitCfgIntensity), (6, 1), (7, 2), (8, 1),
    (9, 1)] ∧ fcodeBits none = 0

/-- 10_state R34, R25: the fields of STATUS, with the five values of PHASE and bit 23 reading 0, in every state. -/
def Obligations.StatusLayout : Prop :=
  ∀ s : State,
    bits 0 3 s.status =
      (match s.phase with
        | .encode => 0#3
        | .configured => 1
        | .sent => 2
        | .halted => 3
        | .faulted => 4) ∧ bits 3 1 s.status = BitVec.ofBool s.busy ∧
    bits 4 4 s.status = fcodeBits s.fcode ∧ bits 8 8 s.status = s.badchar ∧ bits 16 4 s.status = s.cur ∧
    s.status.getLsbD 20 = s.oe.data ∧ s.status.getLsbD 21 = s.oe.clk ∧ s.status.getLsbD 22 = s.oe.load ∧
    s.status.getLsbD 23 = false ∧ bits 24 8 s.status = s.exitCode

/-- 10_state R37: F[s] is bits 8s+7:8s of FRAME, and a line's pad shows LV[l] exactly when OE[l] = 1. -/
def Obligations.OutputPorts : Prop :=
  ∀ s : State, (∀ i : Fin 8, bits (8 * i.val) 8 s.framePort = s.frame[i]) ∧
    ∀ l b, s.padOut l = some b ↔ s.oe.get l = true ∧ s.lv.get l = b

/-! ## The receiver -/

/-- 20_memory R63, R64: what the receiver does on each WR, and Latch(w): w is appended to RX_LOG and RxReg[w[15:8]]
becomes w[7:0]. -/
def Obligations.ReceiverActsOnEdges : Prop :=
  ∀ (r : Receiver) (b : Bool),
    r.see .data b = { r with data := b } ∧
    (r.clk = false → b = true →
      r.see .clk b = { r with sr := (bits 0 15 r.sr : BitVec 15) ++ BitVec.ofBool r.data, clk := true }) ∧
    (r.clk = true ∨ b = false → r.see .clk b = { r with clk := b }) ∧
    (r.load = false → b = true → r.see .load b = { r.latch r.sr with load := true }) ∧
    (r.load = true ∨ b = false → r.see .load b = { r with load := b }) ∧
    (∀ w : Wire, r.latch w =
      { r with log := r.log ++ [w],
               reg := r.reg.set (bits 8 8 w : Byte).toNat (bits 0 8 w) (bits 8 8 w : Byte).isLt })

/-- Each wire row of the opcode table does exactly Latch(w) of 20_memory R64 with its own address (30_encoding R87), and leaves
the block as it is. That this is a wire row's meaning is the model's reading (log 14). -/
def Obligations.WireRowsLatchTheirWord : Prop :=
  ∀ (d : Byte) (s : State), ∀ r ∈ wireRows d, exec r.1 s = .next
    { s with rx := { s.rx with log := s.rx.log ++ [r.2 ++ d], reg := s.rx.reg.set r.2.toNat d r.2.isLt } }

/-- 20_memory R66: after 16 CLK rising edges RX_SR is the 16 levels sampled, the first in bit 15, whatever it held; a No-Op
transaction leaves RX_SR = 0x0000 and latches 0x0000. -/
def Obligations.SixteenClockEdgesFillTheShiftRegister : Prop :=
  (∀ (r : Receiver) (ws : List (Line × Bool)), (samples r ws).length = 16 →
    ∀ j : Fin 16, (r.seeAll ws).sr.getLsbD (15 - j.val) = (samples r ws).getD j.val false) ∧
  (∀ r : Receiver, (r.seeAll (txnWrites 0 0)).sr = 0 ∧ (r.seeAll (txnWrites 0 0)).log.getLast? = some 0)

/-- 70_reset R201, R207: INIT makes the receiver's history and the levels before it irrelevant: the observed words, RX_SR, the levels and
the six registers it writes are the same from any receiver and any LV. `obsStart` is the model's own field (log 18). -/
def Obligations.InitForgetsReceiverHistory : Prop :=
  ∀ (s : State) (r : Receiver) (l : Lines) (n m k : Byte), s.phase = .encode → n ≤ 7 → k ≤ 15 →
    s.platOk = true → s.loadI = true →
    ∃ t u, exec (.init n m k) s = .next t ∧ exec (.init n m k) { s with rx := r, lv := l } = .next u ∧
      u = { t with rx := u.rx, obsStart := u.obsStart } ∧ u.observedWords = t.observedWords ∧
      u.rx.sr = t.rx.sr ∧ u.rx.data = t.rx.data ∧ u.rx.clk = t.rx.clk ∧ u.rx.load = t.rx.load ∧
      ∀ x : Fin 256, x.val ∈ [0x00, 0x09, 0x0A, 0x0B, 0x0C, 0x0F] → u.rx.reg[x] = t.rx.reg[x]

/-! ## Whole-machine statements -/

/-- The block's invariant (10_state R21, R22, R26 to R29, 41_encoder R146 (a), (b)) is kept by every step, inside a command too. -/
def Obligations.EveryStepKeepsTheBlockInvariant : Prop :=
  ∀ s t : State, s.BlockInv → step s = .next t → t.BlockInv

/-- The block's and the lines' invariants hold when the machine starts. -/
def Obligations.StartStateMeetsTheInvariants : Prop := State.reset.BlockInv ∧ State.reset.LinesInv ∧ State.reset.RunLinesInv

/-- 40_protocol R117 (a), (b): between commands after INIT, LOAD and CLK are high, and the receiver's levels are the block's. Every
step from an idle block to an idle block keeps this. Inside a command a line holds the level of the command's last write to it, CLK
and LOAD low included (R110, R112): every step, whatever input lands, keeps the invariant that says so (State.RunLinesInv), and the
command in progress leads to lines that are high again. The pauses are the inputs `begin` and `run` of log 8, and `obsStart`, which
both invariants speak of, is the model's own field (log 18). -/
def Obligations.EveryStepKeepsTheLinesInvariant : Prop :=
  (∀ s t : State, s.isIdle → s.LinesInv → step s = .next t → t.busy = false → t.LinesInv) ∧
  (∀ s t : State, s.RunLinesInv → step s = .next t → t.RunLinesInv) ∧
  (∀ s : State, s.RunLinesInv → s.finish.LinesInv)

/-- 10_state R24: a command interrupted after any number of micro-operations and then run to its end leaves what the command
run as one atomic step leaves; and a step that runs any number of micro-operations keeps what the command in progress leads to. -/
def Obligations.PausedCommandResumesExactly : Prop :=
  (∀ (k : Nat) (ops : List Micro) (s : State), complete (runFor k ops s).seq (runFor k ops s) = complete ops s) ∧
  (∀ (s : State) (k : Nat) (rest : List Input), s.inputs = .run k :: rest →
    ∃ t, step s = .next t ∧ t.finish = { s.finish with inputs := rest })

/-- An accepted command offered with a pause of `k` micro-operations: while some are left and none of the `k` ended the command,
BUSY is 1, the `k` are done and the rest is what is left to run; else the step is the atomic offer's. `run k` goes on in the same way.
After the pause the rest of the command leads to what the atomic offer answers (10_state R24, R26, 42_control R163, 70_reset R200;
`begin` and `run` are log 8, that cp counts at the end is log 10). -/
def Obligations.PausedOfferMatchesAtomicOffer : Prop :=
  (∀ (s : State) (w : Word) (k : Nat) (rest : List Input), s.busy = false → s.phase.live = true →
    let u := { s with inputs := rest, busy := true }
    let ops := commandOps w u
    (∃ t, step { s with inputs := .begin w k :: rest } = .next t ∧
      step { s with inputs := .cmd w :: rest } = .next t.finish) ∧
    (∀ v, k < ops.length → goAll (ops.take k) u = some v →
      step { s with inputs := .begin w k :: rest } = .next { v with busy := true, seq := ops.drop k }) ∧
    (ops.length ≤ k ∨ goAll (ops.take k) u = none →
      step { s with inputs := .begin w k :: rest } = step { s with inputs := .cmd w :: rest })) ∧
  (∀ (s : State) (k : Nat) (rest : List Input), s.busy = true → s.inputs = .run k :: rest →
    (∀ v, k < s.seq.length → goAll (s.seq.take k) { s with inputs := rest } = some v →
      step s = .next { v with busy := true, seq := s.seq.drop k }) ∧
    (s.seq.length ≤ k ∨ goAll (s.seq.take k) { s with inputs := rest } = none →
      step s = .next { complete s.seq { s with inputs := rest } with cp := s.cp + 1 }))

/-- 70_reset R209, 41_encoder R147 (d): until INIT, no command makes a line event: in ENCODE every command but INIT leaves the trace,
the lines and the receiver as they are. -/
def Obligations.NoLineEventBeforeInit : Prop :=
  ∀ (i : Instr) (s t : State), s.phase = .encode → blockRuns i = true → (∀ n m k, i ≠ .init n m k) →
    exec i s = .next t → t.trace = s.trace ∧ t.oe = s.oe ∧ t.lv = s.lv ∧ t.rx = s.rx

/-- 10_state R36, R32: PLAT_OK and LOAD_I are sampled by INIT alone: any other instruction does the same whatever the ports hold. -/
def Obligations.OnlyInitSamplesThePorts : Prop :=
  ∀ (i : Instr) (s t : State) (p l : Bool), (∀ n m k, i ≠ .init n m k) → exec i s = .next t →
    exec i { s with platOk := p, loadI := l } = .next { t with platOk := p, loadI := l }

/-- The frame is written only before INIT (10_state R20): after it no command changes F, CUR or OE. -/
def Obligations.FrameIsReadOnlyAfterInit : Prop :=
  ∀ (i : Instr) (s t : State), s.phase = .configured ∨ s.phase = .sent → exec i s = .next t →
    t.frame = s.frame ∧ t.cur = s.cur ∧ t.oe = s.oe

/-- 30_encoding R95, 70_reset R202, R211: the expansion of RUN, for any string the encoder takes ('.' included) and any legal
operands, ends HALTED with EXIT 0 and 717 line writes, and the reference receiver latches, after INIT step 2, the six words of INIT and
the eight digit words. It says nothing of what a display shows (42_control R165). Where the observation starts is marked by `obsStart`
(log 18). -/
def Obligations.RunLatchesTheFourteenWords : Prop :=
  ∀ (cs : List Byte) (s : State) (n m k : Byte), s.phase = .encode → encodable cs = true →
    n ≤ 7 → k ≤ 15 → s.platOk = true → s.loadI = true →
    let t := runInstrs (runPseudo cs n m k) s
    t.succeeded = true ∧ t.fcode = s.fcode ∧ eventCounts (eventsSince s t) = (1, 3, 717, 1) ∧
    t.observedWords =
      [0x0000, 0x0B#8 ++ n, 0x09#8 ++ m, 0x0F00, 0x0A#8 ++ k, 0x0C01] ++
      (List.finRange 8).map fun i => (BitVec.ofNat 8 (i.val + 1) : Byte) ++ slotOf cs i.val
end

