-- ==== Sys2Proof/Laws/Decode.lean ====
section
/-! SUPPORT. The fields of a concatenation, which the round trips of the decoder rest on. -/

namespace Sys2Proof

/-- The low part of a concatenation. -/
@[simp] theorem bits_low {m n : Nat} (a : BitVec m) (b : BitVec n) : bits 0 n (a ++ b) = b := by
  apply BitVec.eq_of_getLsbD_eq
  intro i hi
  simp [bits, BitVec.getLsbD_append, hi]

/-- The high part of a concatenation. -/
@[simp] theorem bits_high {m n : Nat} (a : BitVec m) (b : BitVec n) : bits n m (a ++ b) = a := by
  apply BitVec.eq_of_getLsbD_eq
  intro i hi
  simp [bits, BitVec.getLsbD_append, hi]

/-- A field inside the low part of a concatenation. -/
theorem bits_of_low {m n lo len : Nat} (a : BitVec m) (b : BitVec n) (h : lo + len ≤ n) :
    bits lo len (a ++ b) = bits lo len b := by
  apply BitVec.eq_of_getLsbD_eq
  intro i hi
  have hlt : lo + i < n := by omega
  simp [bits, BitVec.getLsbD_append, hlt]

/-- A field inside the high part of a concatenation. -/
theorem bits_of_high {m n lo len : Nat} (a : BitVec m) (b : BitVec n) (h : n ≤ lo) :
    bits lo len (a ++ b) = bits (lo - n) len a := by
  apply BitVec.eq_of_getLsbD_eq
  intro i hi
  have hge : ¬ lo + i < n := by omega
  have he : lo + i - n = lo - n + i := by omega
  simp [bits, BitVec.getLsbD_append, hge, he]

/-- A word is the concatenation of its address and data bytes. -/
theorem wire_eq_append (w : Wire) : w = (bits 8 8 w : Byte) ++ (bits 0 8 w : Byte) := by
  apply BitVec.eq_of_getLsbD_eq
  intro i hi
  simp only [BitVec.getLsbD_append, bits, BitVec.getLsbD_extractLsb']
  by_cases h : i < 8
  · simp [h]
  · have h1 : i - 8 < 8 := by omega
    have h2 : 8 + (i - 8) = i := by omega
    simp [h, h1, h2]

/-- The address byte of a wire word (30_encoding R85). -/
@[simp] theorem bits_address (a d : Byte) : (bits 8 8 (wireWord a d) : Byte) = a := bits_high a d

/-- The data byte of a wire word (30_encoding R85). -/
@[simp] theorem bits_data (a d : Byte) : (bits 0 8 (wireWord a d) : Byte) = d := bits_low a d

end Sys2Proof
end

