-- ==== Sys2Proof/Laws/State.lean ====
section
/-! SUPPORT. What each update of the state leaves in each field, so that no proof unfolds a record update. -/

namespace Sys2Proof.Machine

variable (s : State)

section

@[simp] theorem idle_frame : s.idle.frame = s.frame := rfl
@[simp] theorem idle_cur : s.idle.cur = s.cur := rfl
@[simp] theorem idle_phase : s.idle.phase = s.phase := rfl
@[simp] theorem idle_busy : s.idle.busy = false := rfl
@[simp] theorem idle_seq : s.idle.seq = [] := rfl
@[simp] theorem idle_fcode : s.idle.fcode = s.fcode := rfl
@[simp] theorem idle_badchar : s.idle.badchar = s.badchar := rfl
@[simp] theorem idle_exitCode : s.idle.exitCode = s.exitCode := rfl
@[simp] theorem idle_oe : s.idle.oe = s.oe := rfl
@[simp] theorem idle_lv : s.idle.lv = s.lv := rfl
@[simp] theorem idle_platOk : s.idle.platOk = s.platOk := rfl
@[simp] theorem idle_loadI : s.idle.loadI = s.loadI := rfl
@[simp] theorem idle_cp : s.idle.cp = s.cp := rfl
@[simp] theorem idle_trace : s.idle.trace = s.trace := rfl
@[simp] theorem idle_inputs : s.idle.inputs = s.inputs := rfl
@[simp] theorem idle_rx : s.idle.rx = s.rx := rfl
@[simp] theorem idle_obsStart : s.idle.obsStart = s.obsStart := rfl

end

section
variable (rest : List Input)

@[simp] theorem accept_frame : (s.accept rest).frame = s.frame := rfl
@[simp] theorem accept_cur : (s.accept rest).cur = s.cur := rfl
@[simp] theorem accept_phase : (s.accept rest).phase = s.phase := rfl
@[simp] theorem accept_busy : (s.accept rest).busy = true := rfl
@[simp] theorem accept_seq : (s.accept rest).seq = s.seq := rfl
@[simp] theorem accept_fcode : (s.accept rest).fcode = s.fcode := rfl
@[simp] theorem accept_badchar : (s.accept rest).badchar = s.badchar := rfl
@[simp] theorem accept_exitCode : (s.accept rest).exitCode = s.exitCode := rfl
@[simp] theorem accept_oe : (s.accept rest).oe = s.oe := rfl
@[simp] theorem accept_lv : (s.accept rest).lv = s.lv := rfl
@[simp] theorem accept_platOk : (s.accept rest).platOk = s.platOk := rfl
@[simp] theorem accept_loadI : (s.accept rest).loadI = s.loadI := rfl
@[simp] theorem accept_cp : (s.accept rest).cp = s.cp := rfl
@[simp] theorem accept_trace : (s.accept rest).trace = s.trace := rfl
@[simp] theorem accept_inputs : (s.accept rest).inputs = rest := rfl
@[simp] theorem accept_rx : (s.accept rest).rx = s.rx := rfl
@[simp] theorem accept_obsStart : (s.accept rest).obsStart = s.obsStart := rfl

end

section
variable (code : FaultCode) (info : Byte)

@[simp] theorem raise_frame : (s.raise code info).frame = s.frame := rfl
@[simp] theorem raise_cur : (s.raise code info).cur = s.cur := rfl
@[simp] theorem raise_phase : (s.raise code info).phase = .faulted := rfl
@[simp] theorem raise_busy : (s.raise code info).busy = false := rfl
@[simp] theorem raise_seq : (s.raise code info).seq = [] := rfl
@[simp] theorem raise_fcode : (s.raise code info).fcode = some code := rfl
@[simp] theorem raise_badchar : (s.raise code info).badchar = if code = .badChar then info else s.badchar := rfl
@[simp] theorem raise_exitCode : (s.raise code info).exitCode = code.exit := rfl
@[simp] theorem raise_oe : (s.raise code info).oe = s.oe := rfl
@[simp] theorem raise_lv : (s.raise code info).lv = s.lv := rfl
@[simp] theorem raise_platOk : (s.raise code info).platOk = s.platOk := rfl
@[simp] theorem raise_loadI : (s.raise code info).loadI = s.loadI := rfl
@[simp] theorem raise_cp : (s.raise code info).cp = s.cp := rfl
@[simp] theorem raise_trace : (s.raise code info).trace = s.trace := rfl
@[simp] theorem raise_inputs : (s.raise code info).inputs = s.inputs := rfl
@[simp] theorem raise_rx : (s.raise code info).rx = s.rx := rfl
@[simp] theorem raise_obsStart : (s.raise code info).obsStart = s.obsStart := rfl

end

section
variable (l : Line) (b : Bool)

@[simp] theorem lineWrite_frame : (s.lineWrite l b).frame = s.frame := rfl
@[simp] theorem lineWrite_cur : (s.lineWrite l b).cur = s.cur := rfl
@[simp] theorem lineWrite_phase : (s.lineWrite l b).phase = s.phase := rfl
@[simp] theorem lineWrite_busy : (s.lineWrite l b).busy = s.busy := rfl
@[simp] theorem lineWrite_seq : (s.lineWrite l b).seq = s.seq := rfl
@[simp] theorem lineWrite_fcode : (s.lineWrite l b).fcode = s.fcode := rfl
@[simp] theorem lineWrite_badchar : (s.lineWrite l b).badchar = s.badchar := rfl
@[simp] theorem lineWrite_exitCode : (s.lineWrite l b).exitCode = s.exitCode := rfl
@[simp] theorem lineWrite_oe : (s.lineWrite l b).oe = s.oe := rfl
@[simp] theorem lineWrite_lv : (s.lineWrite l b).lv = s.lv.set l b := rfl
@[simp] theorem lineWrite_platOk : (s.lineWrite l b).platOk = s.platOk := rfl
@[simp] theorem lineWrite_loadI : (s.lineWrite l b).loadI = s.loadI := rfl
@[simp] theorem lineWrite_cp : (s.lineWrite l b).cp = s.cp := rfl
@[simp] theorem lineWrite_trace : (s.lineWrite l b).trace = s.trace ++ [.wr l b] := rfl
@[simp] theorem lineWrite_inputs : (s.lineWrite l b).inputs = s.inputs := rfl
@[simp] theorem lineWrite_rx : (s.lineWrite l b).rx = s.rx.see l b := rfl
@[simp] theorem lineWrite_obsStart : (s.lineWrite l b).obsStart = s.obsStart := rfl

end

section
variable (l : Line)

@[simp] theorem lineCfgOut_frame : (s.lineCfgOut l).frame = s.frame := rfl
@[simp] theorem lineCfgOut_cur : (s.lineCfgOut l).cur = s.cur := rfl
@[simp] theorem lineCfgOut_phase : (s.lineCfgOut l).phase = s.phase := rfl
@[simp] theorem lineCfgOut_busy : (s.lineCfgOut l).busy = s.busy := rfl
@[simp] theorem lineCfgOut_seq : (s.lineCfgOut l).seq = s.seq := rfl
@[simp] theorem lineCfgOut_fcode : (s.lineCfgOut l).fcode = s.fcode := rfl
@[simp] theorem lineCfgOut_badchar : (s.lineCfgOut l).badchar = s.badchar := rfl
@[simp] theorem lineCfgOut_exitCode : (s.lineCfgOut l).exitCode = s.exitCode := rfl
@[simp] theorem lineCfgOut_oe : (s.lineCfgOut l).oe = s.oe.set l true := rfl
@[simp] theorem lineCfgOut_lv : (s.lineCfgOut l).lv = s.lv := rfl
@[simp] theorem lineCfgOut_platOk : (s.lineCfgOut l).platOk = s.platOk := rfl
@[simp] theorem lineCfgOut_loadI : (s.lineCfgOut l).loadI = s.loadI := rfl
@[simp] theorem lineCfgOut_cp : (s.lineCfgOut l).cp = s.cp := rfl
@[simp] theorem lineCfgOut_trace : (s.lineCfgOut l).trace = s.trace ++ [.cfg l] := rfl
@[simp] theorem lineCfgOut_inputs : (s.lineCfgOut l).inputs = s.inputs := rfl
@[simp] theorem lineCfgOut_rx : (s.lineCfgOut l).rx = s.rx := rfl
@[simp] theorem lineCfgOut_obsStart : (s.lineCfgOut l).obsStart = s.obsStart := rfl

end

section
variable (a d : Byte)

@[simp] theorem latchWord_frame : (s.latchWord a d).frame = s.frame := rfl
@[simp] theorem latchWord_cur : (s.latchWord a d).cur = s.cur := rfl
@[simp] theorem latchWord_phase : (s.latchWord a d).phase = s.phase := rfl
@[simp] theorem latchWord_busy : (s.latchWord a d).busy = s.busy := rfl
@[simp] theorem latchWord_seq : (s.latchWord a d).seq = s.seq := rfl
@[simp] theorem latchWord_fcode : (s.latchWord a d).fcode = s.fcode := rfl
@[simp] theorem latchWord_badchar : (s.latchWord a d).badchar = s.badchar := rfl
@[simp] theorem latchWord_exitCode : (s.latchWord a d).exitCode = s.exitCode := rfl
@[simp] theorem latchWord_oe : (s.latchWord a d).oe = s.oe := rfl
@[simp] theorem latchWord_lv : (s.latchWord a d).lv = s.lv := rfl
@[simp] theorem latchWord_platOk : (s.latchWord a d).platOk = s.platOk := rfl
@[simp] theorem latchWord_loadI : (s.latchWord a d).loadI = s.loadI := rfl
@[simp] theorem latchWord_cp : (s.latchWord a d).cp = s.cp := rfl
@[simp] theorem latchWord_trace : (s.latchWord a d).trace = s.trace := rfl
@[simp] theorem latchWord_inputs : (s.latchWord a d).inputs = s.inputs := rfl
@[simp] theorem latchWord_rx : (s.latchWord a d).rx = s.rx.latch (wireWord a d) := rfl
@[simp] theorem latchWord_obsStart : (s.latchWord a d).obsStart = s.obsStart := rfl

end

section
variable (d : Draw)

@[simp] theorem applyReset_frame : (s.applyReset d).frame = Vector.replicate 8 0 := rfl
@[simp] theorem applyReset_cur : (s.applyReset d).cur = 0 := rfl
@[simp] theorem applyReset_phase : (s.applyReset d).phase = .encode := rfl
@[simp] theorem applyReset_busy : (s.applyReset d).busy = false := rfl
@[simp] theorem applyReset_seq : (s.applyReset d).seq = [] := rfl
@[simp] theorem applyReset_fcode : (s.applyReset d).fcode = none := rfl
@[simp] theorem applyReset_badchar : (s.applyReset d).badchar = 0 := rfl
@[simp] theorem applyReset_exitCode : (s.applyReset d).exitCode = 0 := rfl
@[simp] theorem applyReset_oe : (s.applyReset d).oe = ⟨false, false, false⟩ := rfl
@[simp] theorem applyReset_lv : (s.applyReset d).lv = d.lv := rfl
@[simp] theorem applyReset_platOk : (s.applyReset d).platOk = s.platOk := rfl
@[simp] theorem applyReset_loadI : (s.applyReset d).loadI = s.loadI := rfl
@[simp] theorem applyReset_cp : (s.applyReset d).cp = s.cp := rfl
@[simp] theorem applyReset_trace : (s.applyReset d).trace = s.trace := rfl
@[simp] theorem applyReset_inputs : (s.applyReset d).inputs = s.inputs := rfl
@[simp] theorem applyReset_rx : (s.applyReset d).rx = d.rx := rfl
@[simp] theorem applyReset_obsStart : (s.applyReset d).obsStart = none := rfl

end

section
variable (c : FaultCode) (e b : Byte)

@[simp] theorem faultedWith_frame : (s.faultedWith c e b).frame = s.frame := rfl
@[simp] theorem faultedWith_cur : (s.faultedWith c e b).cur = s.cur := rfl
@[simp] theorem faultedWith_phase : (s.faultedWith c e b).phase = .faulted := rfl
@[simp] theorem faultedWith_busy : (s.faultedWith c e b).busy = false := rfl
@[simp] theorem faultedWith_seq : (s.faultedWith c e b).seq = [] := rfl
@[simp] theorem faultedWith_fcode : (s.faultedWith c e b).fcode = some c := rfl
@[simp] theorem faultedWith_badchar : (s.faultedWith c e b).badchar = b := rfl
@[simp] theorem faultedWith_exitCode : (s.faultedWith c e b).exitCode = e := rfl
@[simp] theorem faultedWith_oe : (s.faultedWith c e b).oe = s.oe := rfl
@[simp] theorem faultedWith_lv : (s.faultedWith c e b).lv = s.lv := rfl
@[simp] theorem faultedWith_platOk : (s.faultedWith c e b).platOk = s.platOk := rfl
@[simp] theorem faultedWith_loadI : (s.faultedWith c e b).loadI = s.loadI := rfl
@[simp] theorem faultedWith_cp : (s.faultedWith c e b).cp = s.cp := rfl
@[simp] theorem faultedWith_trace : (s.faultedWith c e b).trace = s.trace := rfl
@[simp] theorem faultedWith_inputs : (s.faultedWith c e b).inputs = s.inputs := rfl
@[simp] theorem faultedWith_rx : (s.faultedWith c e b).rx = s.rx := rfl
@[simp] theorem faultedWith_obsStart : (s.faultedWith c e b).obsStart = s.obsStart := rfl

end

section

@[simp] theorem countEnded_frame : s.countEnded.frame = s.frame := by unfold State.countEnded; split <;> rfl
@[simp] theorem countEnded_cur : s.countEnded.cur = s.cur := by unfold State.countEnded; split <;> rfl
@[simp] theorem countEnded_phase : s.countEnded.phase = s.phase := by unfold State.countEnded; split <;> rfl
@[simp] theorem countEnded_busy : s.countEnded.busy = s.busy := by unfold State.countEnded; split <;> rfl
@[simp] theorem countEnded_seq : s.countEnded.seq = s.seq := by unfold State.countEnded; split <;> rfl
@[simp] theorem countEnded_fcode : s.countEnded.fcode = s.fcode := by unfold State.countEnded; split <;> rfl
@[simp] theorem countEnded_badchar : s.countEnded.badchar = s.badchar := by unfold State.countEnded; split <;> rfl
@[simp] theorem countEnded_exitCode : s.countEnded.exitCode = s.exitCode := by unfold State.countEnded; split <;> rfl
@[simp] theorem countEnded_oe : s.countEnded.oe = s.oe := by unfold State.countEnded; split <;> rfl
@[simp] theorem countEnded_lv : s.countEnded.lv = s.lv := by unfold State.countEnded; split <;> rfl
@[simp] theorem countEnded_platOk : s.countEnded.platOk = s.platOk := by unfold State.countEnded; split <;> rfl
@[simp] theorem countEnded_loadI : s.countEnded.loadI = s.loadI := by unfold State.countEnded; split <;> rfl
@[simp] theorem countEnded_cp : s.countEnded.cp = s.cp + if s.busy then 0 else 1 := by
  unfold State.countEnded; split <;> rfl
@[simp] theorem countEnded_trace : s.countEnded.trace = s.trace := by unfold State.countEnded; split <;> rfl
@[simp] theorem countEnded_inputs : s.countEnded.inputs = s.inputs := by unfold State.countEnded; split <;> rfl
@[simp] theorem countEnded_rx : s.countEnded.rx = s.rx := by unfold State.countEnded; split <;> rfl
@[simp] theorem countEnded_obsStart : s.countEnded.obsStart = s.obsStart := by unfold State.countEnded; split <;> rfl

end

end Sys2Proof.Machine
end

