-- ==== Sys2Proof/Laws/Ops.lean ====
section
/-! SUPPORT. One lemma per shared operation: what it can do, which proofs cite instead of unfolding it. -/

namespace Sys2Proof.Machine

/-! ### Line registers -/

@[simp] theorem Lines.get_set_same (r : Lines) (l : Line) (b : Bool) : (r.set l b).get l = b := by
  cases l <;> rfl

theorem Lines.get_set_other (r : Lines) (l k : Line) (b : Bool) (h : k ≠ l) : (r.set l b).get k = r.get k := by
  cases l <;> cases k <;> first | rfl | exact absurd rfl h

/-! ### The receiver -/

@[simp] theorem seeAll_nil (r : Receiver) : r.seeAll [] = r := rfl

@[simp] theorem seeAll_cons (r : Receiver) (w : Line × Bool) (ws : List (Line × Bool)) :
    r.seeAll (w :: ws) = (r.see w.1 w.2).seeAll ws := rfl

theorem seeAll_append (r : Receiver) (us ws : List (Line × Bool)) :
    r.seeAll (us ++ ws) = (r.seeAll us).seeAll ws := by
  simp [Receiver.seeAll]

/-- One bit of ShiftBody at the receiver (40_protocol R110, 20_memory R63): a CLK rising edge that samples `b`,
whatever CLK was before. -/
theorem see_bit (r : Receiver) (b : Bool) :
    ((r.see .clk false).see .data b).see .clk true =
      { r with sr := r.sr.shiftConcat b, data := b, clk := true } := by
  simp [Receiver.see]

/-- Sixteen bits shifted in are the word (20_memory R66). -/
theorem shiftConcat_word (x v : Wire) :
    [15, 14, 13, 12, 11, 10, 9, 8, 7, 6, 5, 4, 3, 2, 1, 0].foldl (fun a i => a.shiftConcat (v.getLsbD i)) x = v := by
  apply BitVec.eq_of_getLsbD_eq
  intro i hi
  simp only [List.foldl_cons, List.foldl_nil, BitVec.getLsbD_shiftConcat]
  have h : i = 0 ∨ i = 1 ∨ i = 2 ∨ i = 3 ∨ i = 4 ∨ i = 5 ∨ i = 6 ∨ i = 7 ∨ i = 8 ∨ i = 9 ∨ i = 10 ∨ i = 11 ∨
      i = 12 ∨ i = 13 ∨ i = 14 ∨ i = 15 := by omega
  rcases h with rfl | rfl | rfl | rfl | rfl | rfl | rfl | rfl | rfl | rfl | rfl | rfl | rfl | rfl | rfl | rfl <;> simp

/-- ShiftBody at the receiver (20_memory R66): RX_SR is the word whatever it held, and nothing is latched. -/
theorem seeAll_shiftWrites (r : Receiver) (v : Wire) :
    r.seeAll (shiftWrites v) = { r with sr := v, data := v.getLsbD 0, clk := true } := by
  conv_rhs => rw [← shiftConcat_word r.sr v]
  simp only [shiftWrites, List.flatMap_cons, List.flatMap_nil, List.cons_append, List.nil_append, List.append_nil,
    seeAll_cons, seeAll_nil, see_bit, List.foldl_cons, List.foldl_nil]
  simp

/-- The LOAD rising edge of TxnBody's first write, if the receiver last saw LOAD low (20_memory R63, R65). -/
theorem see_load_high (r : Receiver) :
    r.see .load true = { (if r.load then r else r.latch r.sr) with load := true } := by
  cases h : r.load <;> simp [Receiver.see, h]

/-- TxnBody at the receiver (40_protocol R118): exactly its word is latched, after the one its first write may latch. -/
theorem seeAll_txnWrites (r : Receiver) (a d : Byte) :
    r.seeAll (txnWrites a d) =
      ({ (if r.load then r else r.latch r.sr) with
          sr := wireWord a d, data := d.getLsbD 0, clk := true, load := true } : Receiver).latch (wireWord a d) := by
  have h0 : (wireWord a d).getLsbD 0 = d.getLsbD 0 := by
    simp only [wireWord, BitVec.getLsbD_append]; simp
  simp only [txnWrites, seeAll_append, seeAll_cons, seeAll_nil, see_load_high, seeAll_shiftWrites, h0]
  cases h : r.load <;> simp [Receiver.see, Receiver.latch]

/-- The registers after some transactions are latched, in order (20_memory R64). -/
def latchedRegs (reg : Vector Byte 256) (ts : List (Byte × Byte)) : Vector Byte 256 :=
  ts.foldl (fun g t => g.set t.1.toNat t.2 t.1.isLt) reg

/-- Transactions at a receiver that last saw LOAD high (40_protocol R118): each word is latched, in order, and nothing
else; RX_SR and DATA are the last word's. -/
theorem seeAll_txnsWrites (r : Receiver) (ts : List (Byte × Byte)) (a d : Byte) (hl : r.load = true) :
    r.seeAll (txnsWrites (ts ++ [(a, d)])) =
      { sr := wireWord a d, data := d.getLsbD 0, clk := true, load := true,
        log := r.log ++ (ts ++ [(a, d)]).map fun t => wireWord t.1 t.2,
        reg := latchedRegs r.reg (ts ++ [(a, d)]) } := by
  induction ts generalizing r with
  | nil =>
    have h : txnsWrites ([] ++ [(a, d)]) = txnWrites a d := by simp [txnsWrites]
    rw [h, seeAll_txnWrites]
    simp [hl, Receiver.latch, latchedRegs]
  | cons t ts ih =>
    have h : txnsWrites (t :: ts ++ [(a, d)]) = txnWrites t.1 t.2 ++ txnsWrites (ts ++ [(a, d)]) := by simp [txnsWrites]
    rw [h, seeAll_append, seeAll_txnWrites, ih _ (by simp [Receiver.latch])]
    simp [hl, Receiver.latch, latchedRegs]

/-- The registers that no transaction addresses keep their values (20_memory R64). -/
theorem latchedRegs_other (reg : Vector Byte 256) (ts : List (Byte × Byte)) (x : Nat) (hx : x < 256)
    (h : ∀ t ∈ ts, t.1.toNat ≠ x) : (latchedRegs reg ts)[x] = reg[x] := by
  induction ts generalizing reg with
  | nil => rfl
  | cons t ts ih =>
    have h1 := ih (reg.set t.1.toNat t.2 t.1.isLt) (fun u hu => h u (List.mem_cons_of_mem _ hu))
    rw [Vector.getElem_set_ne _ _ (h t List.mem_cons_self)] at h1
    exact h1

/-! ### The levels after ShiftBody and TxnBody -/

/-- LV after some line writes (10_state R31). -/
def Lines.setAll (r : Lines) (ws : List (Line × Bool)) : Lines := ws.foldl (fun r w => r.set w.1 w.2) r

theorem setAll_append (r : Lines) (us ws : List (Line × Bool)) : r.setAll (us ++ ws) = (r.setAll us).setAll ws := by
  simp [Lines.setAll]

/-- CLK ends high and DATA is bit 0 (40_protocol R117 (b), (c)). -/
theorem setAll_shiftWrites (r : Lines) (v : Wire) :
    r.setAll (shiftWrites v) = { r with data := v.getLsbD 0, clk := true } := rfl

/-- LOAD and CLK end high and DATA is bit 0 of the data byte (40_protocol R117). -/
theorem setAll_txnWrites (r : Lines) (a d : Byte) :
    r.setAll (txnWrites a d) = { data := d.getLsbD 0, clk := true, load := true } := by
  have h0 : (wireWord a d).getLsbD 0 = d.getLsbD 0 := by
    simp only [wireWord, BitVec.getLsbD_append]; simp
  rw [txnWrites, setAll_append, setAll_append, setAll_shiftWrites, h0]
  rfl

/-- LV after some transactions (40_protocol R117). -/
theorem setAll_txnsWrites (r : Lines) (ts : List (Byte × Byte)) (a d : Byte) :
    r.setAll (txnsWrites (ts ++ [(a, d)])) = { data := d.getLsbD 0, clk := true, load := true } := by
  have h : txnsWrites (ts ++ [(a, d)]) = txnsWrites ts ++ txnWrites a d := by simp [txnsWrites]
  rw [h, setAll_append, setAll_txnWrites]

/-! ### The events of line writes -/

/-- The events of some line writes (00_scope R11). -/
def eventsOf (ws : List (Line × Bool)) : List Event := ws.map fun w => .wr w.1 w.2

theorem eventsOf_shiftWrites (v : Wire) : eventsOf (shiftWrites v) = shiftEvents v := rfl

theorem eventsOf_txnWrites (a d : Byte) : eventsOf (txnWrites a d) = txnEvents (a, d) := rfl

theorem eventsOf_txnsWrites (ts : List (Byte × Byte)) : eventsOf (txnsWrites ts) = ts.flatMap txnEvents := by
  induction ts with
  | nil => rfl
  | cons t ts ih =>
    have h : txnsWrites (t :: ts) = txnWrites t.1 t.2 ++ txnsWrites ts := by simp [txnsWrites]
    rw [h, eventsOf, List.map_append, ← eventsOf, ← eventsOf, ih, eventsOf_txnWrites]
    rfl

/-! ### Running micro-operations -/

/-- Line writes in order (00_scope R11). -/
def State.writes (ws : List (Line × Bool)) (s : State) : State :=
  { s with
    lv := s.lv.setAll ws
    trace := s.trace ++ eventsOf ws
    rx := s.rx.seeAll ws }

theorem writes_nil (s : State) : s.writes [] = s := by simp [State.writes, Lines.setAll, eventsOf]

theorem writes_cons (w : Line × Bool) (ws : List (Line × Bool)) (s : State) :
    s.writes (w :: ws) = (s.lineWrite w.1 w.2).writes ws := by
  simp [State.writes, State.lineWrite, Lines.setAll, eventsOf]

/-- Line writes always go on, and leave everything but LV, the trace and the receiver as it was. -/
theorem runOps_writes (ws : List (Line × Bool)) (ms : List Micro) (s : State) :
    runOps (writeOps ws ++ ms) s = runOps ms (s.writes ws) := by
  induction ws generalizing s with
  | nil => simp [writeOps, writes_nil]
  | cons w ws ih =>
    rw [writes_cons, ← ih]
    rfl

/-- A step of `runOps` that goes on. -/
theorem runOps_go {m : Micro} {s t : State} (h : m.run s = .go t) (ms : List Micro) :
    runOps (m :: ms) s = runOps ms t := by
  simp [runOps, h]

/-- A step of `runOps` that ends the command. -/
theorem runOps_stop {m : Micro} {s t : State} (h : m.run s = .stop t) (ms : List Micro) :
    runOps (m :: ms) s = t := by
  simp [runOps, h]

/-- A fault ends the command at once, and `idle` adds nothing to it (60_exceptions R176). -/
@[simp] theorem complete_raise (c : FaultCode) (x : Byte) (ms : List Micro) (s : State) :
    complete (.raise c x :: ms) s = s.raise c x := rfl

@[simp] theorem complete_nil (s : State) : complete [] s = s.idle := rfl

/-- No micro-operation touches cp: it counts commands that have ended (10_state R23). -/
theorem run_cp (m : Micro) (s : State) :
    (∃ t, m.run s = .go t ∧ t.cp = s.cp) ∨ ∃ t, m.run s = .stop t ∧ t.cp = s.cp := by
  cases m <;>
    simp only [Micro.run, State.encodeDigit, State.encodeDp, State.platformSetup, State.readLoad] <;>
    (try split) <;> first | exact .inl ⟨_, rfl, rfl⟩ | exact .inr ⟨_, rfl, rfl⟩

/-- Some micro-operations leave cp (10_state R23). -/
theorem runFor_cp (k : Nat) (ops : List Micro) (s : State) : (runFor k ops s).cp = s.cp := by
  induction ops generalizing k s with
  | nil => cases k <;> rfl
  | cons m ms ih =>
    cases k with
    | zero => rfl
    | succ k =>
      obtain ⟨t, h, ht⟩ | ⟨t, h, ht⟩ := run_cp m s <;> simp only [runFor, h]
      · rw [ih, ht]
      · exact ht

/-- A whole command leaves cp to the step that counts it (10_state R23). -/
theorem complete_cp (ops : List Micro) (s : State) : (complete ops s).cp = s.cp := by
  induction ops generalizing s with
  | nil => rfl
  | cons m ms ih =>
    obtain ⟨t, h, ht⟩ | ⟨t, h, ht⟩ := run_cp m s <;> simp only [complete, runOps, h]
    · rw [← complete, ih, ht]
    · exact ht

/-- A pause inside a command: BUSY is 1, the first `k` micro-operations are done, the rest is left (10_state R24, R26). -/
theorem runFor_pauses {k : Nat} {ops : List Micro} {s v : State} (hk : k < ops.length)
    (h : goAll (ops.take k) s = some v) : runFor k ops s = { v with busy := true, seq := ops.drop k } := by
  induction ops generalizing k s with
  | nil => simp at hk
  | cons m ms ih =>
    cases k with
    | zero => simp only [List.take_zero, goAll, Option.some.injEq] at h; subst h; rfl
    | succ k =>
      simp only [List.take_succ_cons, goAll] at h
      cases hm : m.run s with
      | go t => simp only [hm] at h; simpa [runFor, hm] using ih (by simpa using hk) h
      | stop t => simp [hm] at h

/-- No pause: the command ends within `k` micro-operations, by completing or by a micro-operation that ends it. -/
theorem runFor_ends {k : Nat} {ops : List Micro} {s : State}
    (h : ops.length ≤ k ∨ goAll (ops.take k) s = none) : runFor k ops s = complete ops s := by
  induction ops generalizing k s with
  | nil => cases k <;> rfl
  | cons m ms ih =>
    cases k with
    | zero => simp [goAll] at h
    | succ k =>
      cases hm : m.run s with
      | go t =>
        simp only [List.length_cons, Nat.succ_le_succ_iff, List.take_succ_cons, goAll, hm] at h
        simpa [runFor, complete, runOps, hm] using ih h
      | stop t => simp [runFor, complete, runOps, hm]

/-- Micro-operations that all go on take effect before whatever follows them (00_scope R12, 60_exceptions R176). -/
theorem complete_append {ops : List Micro} {s t : State} (h : goAll ops s = some t) (ms : List Micro) :
    complete (ops ++ ms) s = complete ms t := by
  induction ops generalizing s with
  | nil => simp only [goAll, Option.some.injEq] at h; subst h; rfl
  | cons m ops ih =>
    cases hm : m.run s with
    | go u => simp only [goAll, hm] at h; simpa [complete, runOps, hm] using ih h
    | stop u => simp [goAll, hm] at h

/-- A micro-operation that ends the command is its last (00_scope R12, 60_exceptions R176). -/
theorem complete_stop {m : Micro} {s u : State} (h : m.run s = .stop u) (ms : List Micro) :
    complete (m :: ms) s = u.idle := by
  rw [complete, runOps_stop h]

/-- What the phase check admits (42_control R161). -/
theorem phaseCheck_cases (need : Need) (s : State) (ops : List Micro) :
    (s.phase.live = false ∧ phaseCheck need s ops = []) ∨
    (s.phase.live = true ∧ (phaseCheck need s ops = ops ∨ phaseCheck need s ops = [.raise .sequence 0])) := by
  cases need <;> cases h : s.phase <;> simp [phaseCheck, h, Phase.live]

/-- Every instruction's meaning answers a next state. -/
theorem exec_next (i : Instr) (s : State) : ∃ t, exec i s = .next t := by
  cases i <;> exact ⟨_, rfl⟩

end Sys2Proof.Machine
end

