-- ==== Sys2Proof/Laws/PerInstr.lean ====
section
/-! SUPPORT. Per-instruction laws: the encoding of every instruction is selected by its own row of
spec/opcode_table.json, (word & mask) = match (30_encoding R82). -/

namespace Sys2Proof.Laws

/-- A row's width, match and mask, as spec/opcode_table.json prints them. -/
structure Row where
  width : Nat
  bitsMatch : Nat
  bitsMask : Nat

/-- The row of an instruction. -/
def rowOf : Instr → Row
  | .encClear => ⟨32, 0x10000000, 0xFFFFFFFF⟩
  | .encChar _ => ⟨32, 0x20000000, 0xFFFFFF00⟩
  | .init _ _ _ => ⟨32, 0x30000000, 0xFF000000⟩
  | .shift16 _ => ⟨32, 0x40000000, 0xFFFF0000⟩
  | .txn _ _ => ⟨32, 0x50000000, 0xFFFF0000⟩
  | .frameOut => ⟨32, 0x60000000, 0xFFFFFFFF⟩
  | .halt => ⟨32, 0x70000000, 0xFFFFFFFF⟩
  | .wireNoop _ => ⟨16, 0x0000, 0xFF00⟩
  | .wireDigit0 _ => ⟨16, 0x0100, 0xFF00⟩
  | .wireDigit1 _ => ⟨16, 0x0200, 0xFF00⟩
  | .wireDigit2 _ => ⟨16, 0x0300, 0xFF00⟩
  | .wireDigit3 _ => ⟨16, 0x0400, 0xFF00⟩
  | .wireDigit4 _ => ⟨16, 0x0500, 0xFF00⟩
  | .wireDigit5 _ => ⟨16, 0x0600, 0xFF00⟩
  | .wireDigit6 _ => ⟨16, 0x0700, 0xFF00⟩
  | .wireDigit7 _ => ⟨16, 0x0800, 0xFF00⟩
  | .wireDecodeMode _ => ⟨16, 0x0900, 0xFF00⟩
  | .wireIntensity _ => ⟨16, 0x0A00, 0xFF00⟩
  | .wireScanLimit _ => ⟨16, 0x0B00, 0xFF00⟩
  | .wireShutdown _ => ⟨16, 0x0C00, 0xFF00⟩
  | .wireDisplayTest _ => ⟨16, 0x0F00, 0xFF00⟩
  | .charSpace => ⟨8, 0x20, 0xFF⟩
  | .charMinus => ⟨8, 0x2D, 0xFF⟩
  | .charDot => ⟨8, 0x2E, 0xFF⟩
  | .char0 => ⟨8, 0x30, 0xFF⟩
  | .char1 => ⟨8, 0x31, 0xFF⟩
  | .char2 => ⟨8, 0x32, 0xFF⟩
  | .char3 => ⟨8, 0x33, 0xFF⟩
  | .char4 => ⟨8, 0x34, 0xFF⟩
  | .char5 => ⟨8, 0x35, 0xFF⟩
  | .char6 => ⟨8, 0x36, 0xFF⟩
  | .char7 => ⟨8, 0x37, 0xFF⟩
  | .char8 => ⟨8, 0x38, 0xFF⟩
  | .char9 => ⟨8, 0x39, 0xFF⟩
  | .charE => ⟨8, 0x45, 0xFF⟩
  | .charH => ⟨8, 0x48, 0xFF⟩
  | .charL => ⟨8, 0x4C, 0xFF⟩
  | .charP => ⟨8, 0x50, 0xFF⟩
  | .charLowerE => ⟨8, 0x65, 0xFF⟩
  | .charLowerH => ⟨8, 0x68, 0xFF⟩
  | .charLowerL => ⟨8, 0x6C, 0xFF⟩
  | .charLowerP => ⟨8, 0x70, 0xFF⟩
  | .charInvalid _ => ⟨8, 0x00, 0x00⟩

/-- Whether a row selects a unit (30_encoding R82). -/
def Row.selects (r : Row) : Packet → Prop
  | .cmd32 w => r.width = 32 ∧ w &&& BitVec.ofNat 32 r.bitsMask = BitVec.ofNat 32 r.bitsMatch
  | .wire16 w => r.width = 16 ∧ w &&& BitVec.ofNat 16 r.bitsMask = BitVec.ofNat 16 r.bitsMatch
  | .char8 c => r.width = 8 ∧ c &&& BitVec.ofNat 8 r.bitsMask = BitVec.ofNat 8 r.bitsMatch

/-- A mask of the high part of a concatenation keeps it and clears the low part. -/
theorem append_and_high {m n : Nat} (a : BitVec m) (b : BitVec n) :
    (a ++ b) &&& (BitVec.allOnes m ++ 0#n) = a ++ 0#n := by
  apply BitVec.eq_of_getLsbD_eq
  intro i hi
  simp only [BitVec.getLsbD_and, BitVec.getLsbD_append]
  split
  · simp
  · have h : i - n < m := by omega
    simp [h]

/-- A fixed high part is read back by the mask that covers it. -/
theorem masked_append {m n k : Nat} (a : BitVec m) (b : BitVec n) (hk : m + n = k)
    (ms mt : BitVec k) (hm : ms = (BitVec.allOnes m ++ 0#n).cast hk) (ht : mt = (a ++ 0#n).cast hk) :
    (a ++ b).cast hk &&& ms = mt := by
  subst hk; subst hm; subst ht; exact append_and_high a b

namespace RowSelects

/-- The encoding of the instruction is selected by its row. -/
def Statement (i : Instr) : Prop := (rowOf i).selects (encode i)

theorem encClear : Statement .encClear := ⟨rfl, rfl⟩
theorem encChar (c : Byte) : Statement (.encChar c) := ⟨rfl, masked_append (0x200000#24) c rfl 0xFFFFFF00#32 0x20000000#32 (by decide) (by decide)⟩
theorem init (n m k : Byte) : Statement (.init n m k) := ⟨rfl, masked_append (0x30#8) (n ++ (m ++ k) : BitVec 24) rfl 0xFF000000#32 0x30000000#32 (by decide) (by decide)⟩
theorem shift16 (v : Wire) : Statement (.shift16 v) := ⟨rfl, masked_append (0x4000#16) v rfl 0xFFFF0000#32 0x40000000#32 (by decide) (by decide)⟩
theorem txn (a d : Byte) : Statement (.txn a d) := ⟨rfl, masked_append (0x5000#16) (a ++ d : BitVec 16) rfl 0xFFFF0000#32 0x50000000#32 (by decide) (by decide)⟩
theorem frameOut : Statement .frameOut := ⟨rfl, rfl⟩
theorem halt : Statement .halt := ⟨rfl, rfl⟩
theorem wireNoop (d : Byte) : Statement (.wireNoop d) := ⟨rfl, masked_append (0x00#8) d rfl 0xFF00#16 0x0000#16 (by decide) (by decide)⟩
theorem wireDigit0 (d : Byte) : Statement (.wireDigit0 d) := ⟨rfl, masked_append (0x01#8) d rfl 0xFF00#16 0x0100#16 (by decide) (by decide)⟩
theorem wireDigit1 (d : Byte) : Statement (.wireDigit1 d) := ⟨rfl, masked_append (0x02#8) d rfl 0xFF00#16 0x0200#16 (by decide) (by decide)⟩
theorem wireDigit2 (d : Byte) : Statement (.wireDigit2 d) := ⟨rfl, masked_append (0x03#8) d rfl 0xFF00#16 0x0300#16 (by decide) (by decide)⟩
theorem wireDigit3 (d : Byte) : Statement (.wireDigit3 d) := ⟨rfl, masked_append (0x04#8) d rfl 0xFF00#16 0x0400#16 (by decide) (by decide)⟩
theorem wireDigit4 (d : Byte) : Statement (.wireDigit4 d) := ⟨rfl, masked_append (0x05#8) d rfl 0xFF00#16 0x0500#16 (by decide) (by decide)⟩
theorem wireDigit5 (d : Byte) : Statement (.wireDigit5 d) := ⟨rfl, masked_append (0x06#8) d rfl 0xFF00#16 0x0600#16 (by decide) (by decide)⟩
theorem wireDigit6 (d : Byte) : Statement (.wireDigit6 d) := ⟨rfl, masked_append (0x07#8) d rfl 0xFF00#16 0x0700#16 (by decide) (by decide)⟩
theorem wireDigit7 (d : Byte) : Statement (.wireDigit7 d) := ⟨rfl, masked_append (0x08#8) d rfl 0xFF00#16 0x0800#16 (by decide) (by decide)⟩
theorem wireDecodeMode (d : Byte) : Statement (.wireDecodeMode d) := ⟨rfl, masked_append (0x09#8) d rfl 0xFF00#16 0x0900#16 (by decide) (by decide)⟩
theorem wireIntensity (d : Byte) : Statement (.wireIntensity d) := ⟨rfl, masked_append (0x0A#8) d rfl 0xFF00#16 0x0A00#16 (by decide) (by decide)⟩
theorem wireScanLimit (d : Byte) : Statement (.wireScanLimit d) := ⟨rfl, masked_append (0x0B#8) d rfl 0xFF00#16 0x0B00#16 (by decide) (by decide)⟩
theorem wireShutdown (d : Byte) : Statement (.wireShutdown d) := ⟨rfl, masked_append (0x0C#8) d rfl 0xFF00#16 0x0C00#16 (by decide) (by decide)⟩
theorem wireDisplayTest (d : Byte) : Statement (.wireDisplayTest d) := ⟨rfl, masked_append (0x0F#8) d rfl 0xFF00#16 0x0F00#16 (by decide) (by decide)⟩
theorem charSpace : Statement .charSpace := ⟨rfl, rfl⟩
theorem charMinus : Statement .charMinus := ⟨rfl, rfl⟩
theorem charDot : Statement .charDot := ⟨rfl, rfl⟩
theorem char0 : Statement .char0 := ⟨rfl, rfl⟩
theorem char1 : Statement .char1 := ⟨rfl, rfl⟩
theorem char2 : Statement .char2 := ⟨rfl, rfl⟩
theorem char3 : Statement .char3 := ⟨rfl, rfl⟩
theorem char4 : Statement .char4 := ⟨rfl, rfl⟩
theorem char5 : Statement .char5 := ⟨rfl, rfl⟩
theorem char6 : Statement .char6 := ⟨rfl, rfl⟩
theorem char7 : Statement .char7 := ⟨rfl, rfl⟩
theorem char8 : Statement .char8 := ⟨rfl, rfl⟩
theorem char9 : Statement .char9 := ⟨rfl, rfl⟩
theorem charE : Statement .charE := ⟨rfl, rfl⟩
theorem charH : Statement .charH := ⟨rfl, rfl⟩
theorem charL : Statement .charL := ⟨rfl, rfl⟩
theorem charP : Statement .charP := ⟨rfl, rfl⟩
theorem charLowerE : Statement .charLowerE := ⟨rfl, rfl⟩
theorem charLowerH : Statement .charLowerH := ⟨rfl, rfl⟩
theorem charLowerL : Statement .charLowerL := ⟨rfl, rfl⟩
theorem charLowerP : Statement .charLowerP := ⟨rfl, rfl⟩
theorem charInvalid (c : Byte) : Statement (.charInvalid c) := ⟨rfl, BitVec.and_zero⟩

end RowSelects

end Sys2Proof.Laws
end

