-- ==== Sys2Proof/Tests/Slice0.lean ====
section
/-! SUPPORT. Tests of this slice: the WellFormed smoke, words written out from the encoding tables of 30_encoding,
single steps with the results that 95_test_vectors prints, and for each statement a state and operands that meet its
hypotheses. -/

namespace Sys2Proof.Tests

-- One theorem at a time, so that the tests need little memory.
set_option Elab.async false

open Sys2Proof Sys2Proof.Machine

/-! ## WellFormed (30_encoding R93) -/

theorem test_wf_refuses_a_digit_as_invalid : (Instr.charInvalid 0x35).WF = false := by decide
theorem test_wf_refuses_the_dot_as_invalid : (Instr.charInvalid 0x2E).WF = false := by decide
theorem test_wf_accepts_an_invalid_character : (Instr.charInvalid 0x78).WF = true := by decide

/-! ## Decoding: words written out from 30_encoding R82, R87, R90 to R93 -/

/-- R82: `00010000...`, `00100000 00000000 00000000 cccccccc` with 'p', `00110000 nnnnnnnn mmmmmmmm kkkkkkkk` with 3, 0x0F, 15. -/
theorem test_decode_encoder_commands :
    decode (.cmd32 0b00010000000000000000000000000000) = .ok .encClear ∧
    decode (.cmd32 0b00100000000000000000000001110000) = .ok (.encChar 0x70) ∧
    decode (.cmd32 0b00110000000000110000111100001111) = .ok (.init 3 0x0F 15) := by decide

/-- R82: `01000000 00000000 vvvvvvvv vvvvvvvv`, `01010000 00000000 aaaaaaaa dddddddd`, FRAME_OUT and HALT. -/
theorem test_decode_driver_commands :
    decode (.cmd32 0b01000000000000000001001000110100) = .ok (.shift16 0x1234) ∧
    decode (.cmd32 0b01010000000000000000000110000000) = .ok (.txn 0x01 0x80) ∧
    decode (.cmd32 0b01100000000000000000000000000000) = .ok .frameOut ∧
    decode (.cmd32 0b01110000000000000000000000000000) = .ok .halt := by decide

/-- R87: the address byte, then `dddddddd` = 0xA5. -/
theorem test_decode_wire_words :
    [0x00A5#16, 0x01A5, 0x02A5, 0x03A5, 0x04A5, 0x05A5, 0x06A5].map (fun w => decode (.wire16 w)) =
      [.ok (.wireNoop 0xA5), .ok (.wireDigit0 0xA5), .ok (.wireDigit1 0xA5), .ok (.wireDigit2 0xA5),
       .ok (.wireDigit3 0xA5), .ok (.wireDigit4 0xA5), .ok (.wireDigit5 0xA5)] ∧
    [0x07A5#16, 0x08A5, 0x09A5, 0x0AA5, 0x0BA5, 0x0CA5, 0x0FA5].map (fun w => decode (.wire16 w)) =
      [.ok (.wireDigit6 0xA5), .ok (.wireDigit7 0xA5), .ok (.wireDecodeMode 0xA5), .ok (.wireIntensity 0xA5),
       .ok (.wireScanLimit 0xA5), .ok (.wireShutdown 0xA5), .ok (.wireDisplayTest 0xA5)] := ⟨rfl, rfl⟩

/-- R90 to R92: the character codes; R93: any other character is the default row. -/
theorem test_decode_characters :
    [0x30#8, 0x31, 0x32, 0x33, 0x34, 0x35, 0x36, 0x37, 0x38, 0x39].map decodeChar =
      [.char0, .char1, .char2, .char3, .char4, .char5, .char6, .char7, .char8, .char9] ∧
    [0x2D#8, 0x45, 0x65, 0x48, 0x68, 0x4C, 0x6C, 0x50, 0x70, 0x20, 0x2E].map decodeChar =
      [.charMinus, .charE, .charLowerE, .charH, .charLowerH, .charL, .charLowerL, .charP, .charLowerP, .charSpace,
       .charDot] ∧
    decodeChar 0x41 = .charInvalid 0x41 ∧ decodeChar 0xB0 = .charInvalid 0xB0 := ⟨rfl, rfl, rfl, rfl⟩

/-- R97 and 95 V21, V30: illegal words. -/
theorem test_decode_illegal_words :
    [0x00000000#32, 0x80000000, 0xF0000000, 0x11000000, 0x10000001, 0x20000100, 0x70000001, 0x60800000, 0x51000C00,
      0x50010C00].map (fun w => (decode (.cmd32 w)).toOption) = List.replicate 10 none := rfl

/-- R87: an address without a name has no row. -/
theorem test_decode_unnamed_addresses :
    [0x0D00#16, 0x0E00, 0x1000, 0xFFFF].map (fun w => (decode (.wire16 w)).toOption) = List.replicate 4 none := rfl

/-- The encoder, on words of 95_test_vectors (V22, V8, V18, P1). -/
theorem test_encode_commands :
    encode (.init 7 0xFF 8) = .cmd32 0x3007FF08 ∧ encode (.txn 0x0C 0x00) = .cmd32 0x50000C00 ∧
    encode (.shift16 0x8001) = .cmd32 0x40008001 ∧ encode (.encChar 0x31) = .cmd32 0x20000031 ∧
    encode (.wireScanLimit 7) = .wire16 0x0B07 := by decide

/-- The host's reading of a table row. -/
theorem test_decode_table_word :
    decodeTableWord 32 0x60000000 = some .frameOut ∧ decodeTableWord 16 0x0F01 = some (.wireDisplayTest 1) ∧
    decodeTableWord 8 0x2E = some .charDot ∧ decodeTableWord 24 0 = none := by decide

/-! ## Small states -/

/-- A frame from its slots, slot 0 first. -/
def frameOf (a b c d e f g h : Byte) : Vector Byte 8 := #v[a, b, c, d, e, f, g, h]

/-- The frame of "1.5" (95 V14). -/
def frame15 : Vector Byte 8 := frameOf 0x05 0x81 0 0 0 0 0 0

/-- The frame of "12" (95 V4). -/
def frame12 : Vector Byte 8 := frameOf 2 1 0 0 0 0 0 0

/-- In ENCODE, with a frame and a cursor. -/
def encoding (f : Vector Byte 8) (cur : BitVec 4) : State :=
  { State.reset with frame := f, cur := cur, lv := ⟨false, false, false⟩ }

/-- Right after reset, with concrete levels. -/
def fresh : State := encoding (frameOf 0 0 0 0 0 0 0 0) 0

/-- After INIT, with a frame and a cursor. -/
def configured (f : Vector Byte 8) (cur : BitVec 4) : State :=
  { encoding f cur with
    phase := .configured, oe := ⟨true, true, true⟩, lv := ⟨false, true, true⟩,
    rx := { Receiver.powerUp with clk := true, load := true }, obsStart := some 0 }

/-- After INIT with "12" encoded. -/
def ready : State := configured frame12 2

/-- After FRAME_OUT. -/
def sent : State := { ready with phase := .sent }

/-- After HALT. -/
def halted : State := { sent with phase := .halted }

/-- After a fault. -/
def faulted : State := ready.raise .sequence 0

/-- A frame with no free slot. -/
def full : State := encoding (frameOf 8 7 6 5 4 3 2 1) 8

/-- A state with one input next. -/
def State.offering (s : State) (x : Input) : State := { s with inputs := [x] }

/-- Inside TXN 0x0C, 0x00, after 20 micro-operations. -/
def inside : State := runFor 20 (txnOps 0x0C 0x00 ready) ready

/-- STATUS after the block took one command word. -/
def statusAfter (s : State) (w : Word) : Option Word :=
  match step (State.offering s (.cmd w)) with
  | .next t => some t.status
  | _ => none

/-- A view of the next state of one command word. -/
def viewAfter {α : Type} (f : State → α) (s : State) (w : Word) : Option α :=
  match step (State.offering s (.cmd w)) with
  | .next t => some (f t)
  | _ => none

/-! ## The encoder, one step each (95_test_vectors) -/

/-- V13. -/
theorem test_encClear : viewAfter (fun t => (t.frame, t.cur, t.status)) (encoding frame15 2) 0x10000000 =
    some (frameOf 0 0 0 0 0 0 0 0, 0, 0) := by decide

/-- V14 "1.5": each of its three steps. -/
theorem test_encChar_digit : viewAfter (fun t => (t.frame, t.cur)) fresh 0x20000035 =
    some (frameOf 5 0 0 0 0 0 0 0, 1) := by decide
theorem test_encChar_dot : viewAfter (fun t => (t.frame, t.cur)) (encoding (frameOf 5 0 0 0 0 0 0 0) 1) 0x2000002E =
    some (frameOf 5 0x80 0 0 0 0 0 0, 1) := by decide
theorem test_char1_keeps_the_point :
    exec .char1 (encoding (frameOf 5 0x80 0 0 0 0 0 0) 1) = .next (encoding frame15 2) := rfl

/-- V2: 'E' and 'e' are code 11. -/
theorem test_charE_and_charLowerE : exec .charE fresh = exec .charLowerE fresh ∧
    exec .charE fresh = .next (encoding (frameOf 0x0B 0 0 0 0 0 0 0) 1) := ⟨rfl, rfl⟩

/-- V14 ".12345678": DP_OVERFLOW. V16: TOO_LONG and BAD_CHAR. -/
theorem test_dot_on_a_full_frame : statusAfter full 0x2000002E = some 0x01080034 := by decide
theorem test_digit_on_a_full_frame : statusAfter full 0x20000031 = some 0x01080024 := by decide
theorem test_bad_character : statusAfter fresh 0x20000078 = some 0x01007814 := by decide
/-- V12. -/
theorem test_bad_character_ff : statusAfter fresh 0x200000FF = some 0x0100FF14 := by decide

/-! ## The protocol driver, one step each (95_test_vectors) -/

/-- V18. -/
theorem test_shift16 : viewAfter (fun t => (t.rx.sr, t.rx.log, t.lv, t.trace.length)) ready 0x40008001 =
    some (0x8001, [], ⟨true, true, true⟩, 48) := by decide +kernel

/-- V20. -/
theorem test_shift16_in_encode : statusAfter fresh 0x40000000 = some 0x01000084 := by decide

/-- V8: the events as the vector prints them. -/
theorem test_txn_events : viewAfter (fun t => t.trace) ready 0x50000C00 =
    some ([.wr .load true] ++
      ([false, false, false, false, true, true, false, false, false, false, false, false, false, false, false,
        false].flatMap fun b => [.wr .clk false, .wr .data b, .wr .clk true]) ++
      [.wr .load false, .wr .load true]) := by decide +kernel

/-- V21: an unnamed address is sent as usual. -/
theorem test_txn_unnamed : viewAfter (fun t => (t.rx.log, t.rx.reg[0xFF], t.lv.data)) ready 0x5000FFFF =
    some ([0xFFFF], 0xFF, true) := by decide +kernel

/-- V22. -/
theorem test_init : viewAfter (fun t => (t.status, t.observedWords, t.trace.length)) (encoding frame12 2) 0x3007FF08 =
    some (0x00720001, [0x0000, 0x0B07, 0x09FF, 0x0F00, 0x0A08, 0x0C01], 314) := by decide +kernel

/-- V9: the bound check of digitCount comes first and makes no event. -/
theorem test_init_bounds : viewAfter (fun t => (t.fcode, t.trace)) (encoding frame12 2) 0x30080010 =
    some (some .cfgDigitcount, []) := by decide

/-- V24 and V25. -/
theorem test_init_platform : statusAfter { encoding frame12 2 with platOk := false } 0x3007FF08 = some 0x01020064 := by
  decide
theorem test_init_loadback : statusAfter { encoding frame12 2 with loadI := false } 0x3007FF08 = some 0x02720074 := by
  decide

/-- V26. -/
theorem test_second_init : statusAfter (configured (frameOf 0 0 0 0 0 0 0 0) 0) 0x3007FF08 = some 0x01700084 := by decide

/-- V27. -/
theorem test_frameOut : viewAfter (fun t => (t.rx.log, t.phase, t.lv.data)) (configured frame15 2) 0x60000000 =
    some ([0x0105, 0x0281, 0x0300, 0x0400, 0x0500, 0x0600, 0x0700, 0x0800], .sent, false) := by decide +kernel

/-- V28. -/
theorem test_frameOut_in_encode : statusAfter fresh 0x60000000 = some 0x01000084 := by decide

/-! ## Control, decoding and acceptance (95_test_vectors V29 to V33, P4) -/

theorem test_halt : statusAfter fresh 0x70000000 = some 0x00000003 := by decide
theorem test_halted_takes_nothing : viewAfter (fun t => (t.status, t.cp)) halted 0x10000000 = some (0x00720003, 0) := by
  decide
/-- 10_state R23, 95 P4: cp counts the faulting command; a paused command, and one that RESET cuts short, is not counted. -/
theorem test_cp_counts_a_faulting_command : viewAfter (fun t => t.cp) { fresh with cp := 1 } 0x20000078 = some 2 := by decide
theorem test_cp_waits_for_the_end : (match step (State.offering ready (.begin 0x50000C00 20)) with
    | .next t => some (t.cp, t.busy, t.finish.cp, (t.applyReset ⟨⟨true, true, true⟩, Receiver.powerUp⟩).cp)
    | _ => none) = some (0, true, 1, 0) := by decide +kernel
/-- log 8: an input can land between the acceptance of an illegal word and its fault. -/
theorem test_illegal_word_paused : (match step (State.offering fresh (.begin 0x80000000 0)) with
    | .next t => some (t.status, t.finish.status)
    | _ => none) = some (0x00000008, 0x01000094) := by decide
theorem test_illegal_word : statusAfter fresh 0x60800000 = some 0x01000094 := by decide
theorem test_illegal_before_phase : viewAfter (fun t => t.fcode) ready 0x20000100 = some (some .illegalCmd) := by decide
theorem test_encChar_after_init : viewAfter (fun t => (t.fcode, t.frame)) ready 0x20000031 =
    some (some .sequence, frame12) := by decide

/-- V33: RESET from FAULTED. -/
theorem test_reset : (match step (State.offering faulted (.reset ⟨⟨true, false, true⟩, Receiver.powerUp⟩)) with
    | .next t => some (t.status, t.framePort, t.lv, t.trace.length)
    | _ => none) = some (0, 0, ⟨true, false, true⟩, faulted.trace.length) := by decide

/-- 10_state R26, R58: inside a transaction BUSY is 1 and LOAD still high. -/
theorem test_inside_a_transaction : (inside.busy, inside.seq.length, inside.lv.load) = (true, 31, true) := by
  decide +kernel

/-- 20_memory R63, R64: a LOAD rising edge on an undriven pad latches RX_SR = 0x0C01. -/
theorem test_wireShutdown : (match step (State.withFetchWord fresh 16 0x0C01) with
    | .next t => some (t.rx.log, t.rx.reg[0x0C], t.rx.load)
    | _ => none) = some ([0x0C01], 0x01, true) := by decide +kernel

/-- 20_memory R68: an unnamed address is latched too. -/
theorem test_unnamed_wire_word : (match step (State.withFetchWord fresh 16 0x0D55) with
    | .next t => some (t.rx.log, t.rx.reg[0x0D], t.rx.load)
    | _ => none) = some ([0x0D55], 0x55, true) := by decide +kernel

/-- A placed unit is the next step's, as the first instruction after reset. -/
theorem test_placed_char : (match step (State.withFetchWord State.reset 8 0x45) with
    | .next t => some (t.frame, t.cur, t.busy)
    | _ => none) = some (frameOf 0x0B 0 0 0 0 0 0 0, 1, false) := by decide

/-- 42_control R164: a second driver is the one stop. -/
theorem test_line_contention : step (State.offering ready (.pad .clk true)) = .fault (.lineContention .clk) := rfl

/-! ## Witnesses: for each statement with hypotheses, what meets them -/

theorem witness_DecodeEncodeRoundTrip : Instr.WF (.init 0xFF 0 0xFF) = true ∧ Instr.WF (.charInvalid 0) = true := ⟨rfl, rfl⟩
theorem witness_EncodeDecodeRoundTrip : decode (.cmd32 0x5000FFFF) = .ok (.txn 0xFF 0xFF) ∧
    decode (.wire16 0x0FFF) = .ok (.wireDisplayTest 0xFF) ∧ decode (.char8 0xFF) = .ok (.charInvalid 0xFF) := ⟨rfl, rfl, rfl⟩
theorem witness_DecimalDigitRomEntries : (0x30 : Byte) ≤ 0x30 ∧ (0x39 : Byte) ≤ 0x39 := by decide
theorem witness_SymbolRomEntries : validChars.contains (0xFF : Byte) = false ∧ validChars.contains (0x2F : Byte) = false := by
  decide

theorem witness_StepRunsTheDecodedCommand : ∃ (s u : State) (w : Word) (c : Byte) (i j : Instr),
    (s.busy = false ∧ s.phase.live = true ∧ s.inputs = [.cmd w] ∧ decode (.cmd32 w) = .ok i) ∧
    (u.busy = false ∧ u.phase.live = true ∧ u.inputs = [.char c] ∧ decode (.char8 c) = .ok j) :=
  ⟨State.offering fresh (.cmd 0x10000000), State.offering ready (.char 0x20), 0x10000000, 0x20, .encClear, .charSpace,
    ⟨rfl, rfl, rfl, rfl⟩, rfl, rfl, rfl, rfl⟩
theorem witness_PadEdgeRunsTheWireWord :
    (∃ (s : State) (i : Instr), s.oe.load = false ∧ s.rx.load = false ∧ s.inputs = [.pad .load true] ∧
      decode (.wire16 s.rx.sr) = .ok i) ∧
    (∃ (s : State) (e : DecodeError), s.oe.load = false ∧ s.rx.load = false ∧ s.inputs = [.pad .load true] ∧
      decode (.wire16 s.rx.sr) = .error e) ∧
    (∃ s : State, s.oe.load = false ∧ s.rx.load = true ∧ s.inputs = [.pad .load true]) ∧
    (∃ s : State, s.oe.data = false ∧ s.inputs = [.pad .data true]) ∧
    ∃ s : State, s.oe.clk = false ∧ s.rx.clk = false ∧ s.inputs = [.pad .clk true] :=
  ⟨⟨State.offering fresh (.pad .load true), .wireNoop 0, rfl, rfl, rfl, rfl⟩,
    ⟨State.offering { fresh with rx := { Receiver.powerUp with sr := 0x0D55 } } (.pad .load true), .unnamedAddress 0x0D,
      rfl, rfl, rfl, rfl⟩,
    ⟨State.offering { fresh with rx := { Receiver.powerUp with load := true } } (.pad .load true), rfl, rfl, rfl⟩,
    ⟨State.offering fresh (.pad .data true), rfl, rfl⟩, State.offering fresh (.pad .clk true), rfl, rfl, rfl⟩
theorem witness_UnselectedWordRaisesIllegalCmd : ∃ (s u : State) (w v : Word) (e : DecodeError) (i : Instr),
    (s.busy = false ∧ s.phase.live = true ∧ s.inputs = [.cmd w] ∧ decode (.cmd32 w) = .error e) ∧
    (u.busy = false ∧ u.phase.live = true ∧ u.inputs = [.cmd v] ∧ decode (.cmd32 v) = .ok i) :=
  ⟨State.offering ready (.cmd 0), State.offering ready (.cmd 0x70000000), 0, 0x70000000, .unknownOp 0, .halt,
    ⟨rfl, rfl, rfl, rfl⟩, rfl, rfl, rfl, rfl⟩
theorem witness_CharOfferIsEncChar : fresh.busy = false ∧ fresh.phase.live = true := ⟨rfl, rfl⟩
theorem witness_PlacedUnitRunsNext : decodeTableWord 32 0x5000FFFF = some (.txn 0xFF 0xFF) ∧
    decodeTableWord 16 0x0FFF = some (.wireDisplayTest 0xFF) ∧ decodeTableWord 8 0xFF = some (.charInvalid 0xFF) :=
  ⟨rfl, rfl, rfl⟩
theorem witness_StepStopsOnlyOnLineContention : ∃ s : State, ∃ l b rest, s.inputs = .pad l b :: rest ∧ s.oe.get l = true :=
  ⟨State.offering ready (.pad .load false), .load, false, [], rfl, rfl⟩
theorem witness_PortInputsSetThePorts : ∃ s u : State, s.inputs = [.plat false] ∧ u.inputs = [.loadIn false] :=
  ⟨State.offering ready (.plat false), State.offering ready (.loadIn false), rfl, rfl⟩
theorem witness_CommandPointerCountsAcceptedCommands : ∃ s t u v : State,
    (step s = .next t ∧ s.inputs = [.cmd 0x70000000] ∧ s.phase.live = true ∧ t.busy = false) ∧
    (step u = .next v ∧ u.inputs = [.reset ⟨⟨true, true, true⟩, Receiver.powerUp⟩] ∧ u.busy = true) :=
  ⟨State.offering ready (.cmd 0x70000000), _, State.offering inside (.reset ⟨⟨true, true, true⟩, Receiver.powerUp⟩), _,
    ⟨rfl, rfl, rfl, rfl⟩, rfl, rfl, rfl⟩
theorem witness_OfferWaitsWhileBusy : ∃ s : State, s.busy = true ∧ s.offered.isSome = true :=
  ⟨State.offering inside (.cmd 0x70000000), rfl, rfl⟩
theorem witness_RunOverAcceptsNothing : ∃ s u : State,
    (s.phase.live = false ∧ s.busy = false ∧ s.seq = [] ∧ s.inputs = [.cmd 0x10000000] ∧ s.offered.isSome = true) ∧
    (u.phase.live = false ∧ u.busy = false ∧ u.seq = [] ∧ u.inputs = [.char 0x31] ∧ u.offered.isSome = true) ∧
    blockRuns .halt = true :=
  ⟨State.offering halted (.cmd 0x10000000), State.offering faulted (.char 0x31), ⟨rfl, rfl, rfl, rfl, rfl⟩,
    ⟨rfl, rfl, rfl, rfl, rfl⟩, rfl⟩
theorem witness_RunOverHoldsUntilReset : ∃ s t : State, s.phase.live = false ∧ s.busy = false ∧ s.seq = [] ∧
    (∀ x rest, s.inputs = x :: rest → x.isReset = false) ∧ step s = .next t :=
  ⟨State.offering faulted (.cmd 0x10000000), _, rfl, rfl, rfl, by intro x rest h; cases h; rfl, rfl⟩
theorem witness_ResetRestoresBlockState : ∃ (s : State) (d : Draw), s.inputs = [.reset d] ∧ s.busy = true :=
  ⟨State.offering inside (.reset ⟨⟨true, true, true⟩, Receiver.powerUp⟩), _, rfl, rfl⟩

/-! The encoder. -/

theorem witness_EncClearEmptiesTheFrame : full.phase = .encode ∧ ready.phase = .configured ∧ sent.phase = .sent ∧
    bits 28 4 (0x10000000 : Word) = 1#4 ∧ bits 0 28 (0x10000000 : Word) = 0 ∧
    bits 28 4 (0x10000001 : Word) = 1#4 ∧ bits 0 28 (0x10000001 : Word) ≠ 0 := by decide
theorem witness_EncCharWritesADigit : (∃ (s : State) (c : Byte), s.cur.toNat = 0 ∧ s.phase = .encode ∧ isDigitChar c = true) ∧
    ∃ (s : State) (c : Byte), s.cur.toNat = 7 ∧ s.phase = .encode ∧ isDigitChar c = true :=
  ⟨⟨fresh, 0x30, rfl, rfl, rfl⟩, encoding (frameOf 8 7 6 5 4 3 2 0x80) 7, 0x20, rfl, rfl, rfl⟩
theorem witness_DigitRowsWriteTheirCodes : ∃ s : State, s.cur.toNat < 8 ∧ s.phase = .encode ∧ (.charSpace, 15) ∈ digitRows :=
  ⟨fresh, by decide, rfl, by decide⟩
theorem witness_DotMarksTheCurrentSlot : ∃ s : State, s.cur.toNat < 8 ∧ s.phase = .encode := ⟨fresh, by decide, rfl⟩
theorem witness_InvalidCharacterRaisesBadChar : full.phase = .encode ∧ romClass (crom 0) = 0 ∧ romClass (crom 0x80) = 0 ∧
    romClass (crom 0xFF) = 0 ∧ (0x5A#8 ∉ [0x45#8, 0x48, 0x4C, 0x50, 0x65, 0x68, 0x6C, 0x70]) ∧
    (0x61#8 ∉ [0x45#8, 0x48, 0x4C, 0x50, 0x65, 0x68, 0x6C, 0x70]) := by decide
theorem witness_FullFrameRefusesCharacters : full.phase = .encode ∧ full.cur = 8 ∧ isDigitChar 0x30 = true ∧
    (Instr.char0, 0#4) ∈ digitRows := by decide
theorem witness_StringEncodesRightToLeft : fresh.phase = .encode ∧
    (∀ c ∈ [0x48#8, 0x45, 0x4C, 0x50, 0x2D, 0x20, 0x30, 0x39], isDigitChar c = true) ∧
    [0x48#8, 0x45, 0x4C, 0x50, 0x2D, 0x20, 0x30, 0x39].length ≤ 8 := by decide
theorem witness_LongStringRaisesTooLong : fresh.phase = .encode ∧ (∀ c ∈ List.replicate 9 0x31#8, isDigitChar c = true) ∧
    9 ≤ (List.replicate 9 0x31#8).length := by decide
theorem witness_PointedStringMarksItsSlots : fresh.phase = .encode ∧
    encodable [0x31#8, 0x2E, 0x32, 0x2E, 0x33, 0x34, 0x35, 0x36, 0x37, 0x38, 0x2E] = true ∧ encodable [] = true := by
  decide +kernel
theorem witness_FirstErrorFromTheRightIsRaised : ∃ s u v : State,
    (runInstrs (encstr [0x31]) s = u ∧ u.phase = .encode) ∧
    (runInstrs (encstr (List.replicate 8 0x31)) s = v ∧ v.phase = .encode ∧ v.cur = 8) ∧
    romClass (crom 0x78) = 0 ∧ isDigitChar 0x31 = true :=
  ⟨fresh, _, _, ⟨rfl, by decide +kernel⟩, ⟨rfl, by decide +kernel, by decide +kernel⟩, rfl, rfl⟩

/-- 95 V14, V15: the slots of "1.5" and of "1.2.3.4.5.6.7.8". -/
theorem test_slotOf :
    (List.range 3).map (slotOf [0x31, 0x2E, 0x35]) = [0x05, 0x81, 0x00] ∧
    (List.range 8).map (slotOf [0x31, 0x2E, 0x32, 0x2E, 0x33, 0x2E, 0x34, 0x2E, 0x35, 0x2E, 0x36, 0x2E, 0x37, 0x2E, 0x38]) =
      [0x08, 0x87, 0x86, 0x85, 0x84, 0x83, 0x82, 0x81] := by decide +kernel

/-! The driver. -/

theorem witness_Shift16SendsSixteenBits : ready.phase = .configured ∧ sent.phase = .sent ∧ fresh.phase = .encode ∧
    bits 28 4 (0x4000FFFF : Word) = 4#4 ∧ bits 16 12 (0x4000FFFF : Word) = 0 ∧
    bits 28 4 (0x40010000 : Word) = 4#4 ∧ bits 16 12 (0x40010000 : Word) ≠ 0 := by decide
theorem witness_TxnLatchesExactlyItsWord : ready.phase = .configured ∧ ready.rx.load = true ∧ fresh.phase = .encode ∧
    bits 28 4 (0x5000FFFF : Word) = 5#4 ∧ bits 16 12 (0x5000FFFF : Word) = 0 ∧
    bits 28 4 (0x51000C00 : Word) = 5#4 ∧ bits 16 12 (0x51000C00 : Word) ≠ 0 := by decide
theorem witness_InitConfiguresTheController : fresh.phase = .encode ∧ (7 : Byte) ≤ 7 ∧ (15 : Byte) ≤ 15 ∧
    fresh.platOk = true ∧ fresh.loadI = true ∧ 0xFF ∉ [0x00, 0x09, 0x0A, 0x0B, 0x0C, 0x0F] ∧
    0xFF ≠ (bits 8 8 fresh.rx.sr : Byte).toNat := by decide
theorem witness_InitBoundFaultsTouchNoLine : fresh.phase = .encode ∧ (7 : Byte) < 8 ∧ (7 : Byte) ≤ 7 ∧ (15 : Byte) < 16 := by
  decide
theorem witness_InitEnvironmentFaults : ∃ s u : State, (s.phase = .encode ∧ s.platOk = false) ∧
    (u.phase = .encode ∧ u.platOk = true ∧ u.loadI = false) :=
  ⟨{ fresh with platOk := false }, { fresh with loadI := false }, ⟨rfl, rfl⟩, rfl, rfl, rfl⟩
theorem witness_FrameOutSendsEverySlot : ready.phase = .configured ∧ ready.rx.load = true ∧ fresh.phase = .encode ∧
    bits 28 4 (0x60000000 : Word) = 6#4 ∧ bits 0 28 (0x60000000 : Word) = 0 ∧
    bits 28 4 (0x60800000 : Word) = 6#4 ∧ bits 0 28 (0x60800000 : Word) ≠ 0 := by decide
theorem witness_EventCountsPerCommand :
    (∃ s t v, exec (.shift16 v) s = .next t ∧ t.phase = .configured) ∧
    (∃ s t a d, exec (.txn a d) s = .next t ∧ t.phase = .sent) ∧
    (∃ s t n m k, exec (.init n m k) s = .next t ∧ s.phase = .encode ∧ t.phase = .configured) ∧
    (∃ s t, exec .frameOut s = .next t ∧ t.phase = .sent ∧ s.phase = .configured) ∧
    ∃ s t c, exec (.encChar c) s = .next t :=
  ⟨⟨ready, _, 0x8001, rfl, by decide +kernel⟩, ⟨sent, _, 0xFF, 0xFF, rfl, by decide +kernel⟩,
    ⟨fresh, _, 7, 0xFF, 15, rfl, rfl, by decide +kernel⟩, ⟨ready, _, rfl, by decide +kernel, rfl⟩, full, _, 0x2E, rfl⟩
theorem witness_LinesMoveOnlyAtTheirClockLevel : (∃ s t, exec (.txn 0x0C 0x01) s = .next t ∧ s.lv.load = true) ∧
    (∃ s t, exec (.init 7 0xFF 8) s = .next t) :=
  ⟨⟨ready, _, rfl, rfl⟩, fresh, _, rfl⟩

/-! Control, faults, the receiver. -/

theorem witness_HaltEndsTheRun : fresh.phase.live = true ∧ ready.phase.live = true ∧ halted.phase.live = false ∧
    halted.busy = false ∧ halted.seq = [] ∧ bits 28 4 (0x70000000 : Word) = 7#4 ∧ bits 0 28 (0x70000000 : Word) = 0 ∧
    bits 28 4 (0x70000001 : Word) = 7#4 ∧ bits 0 28 (0x70000001 : Word) ≠ 0 := by decide
theorem witness_OutOfPhaseCommandRaisesSequence : sent.phase = .sent ∧ blockRuns (.init 7 0xFF 8) = true ∧
    Instr.init 7 0xFF 8 ≠ .frameOut ∧ Instr.init 7 0xFF 8 ≠ .halt ∧ blockRuns .charDot = true ∧ fresh.phase = .encode := by
  decide
theorem witness_SixteenClockEdgesFillTheShiftRegister :
    (samples Receiver.powerUp (shiftWrites 0xFFFF)).length = 16 ∧
    (samples Receiver.powerUp (txnWrites 0x0C 0x01)).length = 16 := by decide +kernel

/-- A mixed prefix as INIT's, the two checks that fail after it, and a full frame. -/
theorem witness_FaultEntryRecordsAndStops : ∃ s t u : State,
    (goAll [.platformSetup, .cfgOut .data, .write .load true, .markObservation] s = some t ∧ t.loadI = false ∧
      ∃ v, Micro.run .readLoad t = .stop v) ∧
    (goAll [] u = some u ∧ u.platOk = false ∧ u.cur = 8) :=
  ⟨{ fresh with loadI := false }, _, { full with platOk := false }, ⟨rfl, rfl, _, rfl⟩, rfl, rfl, rfl⟩

/-! Whole-machine statements. -/

/-- A state between commands, with the frame of "1.5", is within the block's invariant. -/
theorem configured_blockInv (x : Input) : (State.offering (configured frame15 2) x).BlockInv :=
  ⟨⟨by show (2#4).toNat ≤ 8; decide, by show ∀ i : Fin 8, bits 4 3 frame15[i] = 0; decide,
     by show ∀ i : Fin 8, (2#4).toNat < i.val → frame15[i] = 0; decide,
     by show ∀ i : Fin 8, i.val = (2#4).toNat → frame15[i] = 0x00 ∨ frame15[i] = 0x80; decide⟩,
   ⟨by show Phase.configured ≠ .faulted; decide, rfl, rfl⟩, ⟨fun _ => rfl, fun _ => rfl⟩⟩

/-- The lines after INIT are within the lines' invariant. -/
theorem configured_linesInv (x : Input) : (State.offering (configured frame15 2) x).LinesInv :=
  fun _ => ⟨rfl, rfl, rfl, rfl, rfl, rfl, 0, rfl, Nat.le_refl _⟩

theorem witness_EveryStepKeepsTheBlockInvariant : ∃ s t : State, s.BlockInv ∧ step s = .next t :=
  ⟨_, _, configured_blockInv (.begin 0x60000000 100), rfl⟩
/-- The lines inside TXN 0x0C, 0x00 are within the invariant that speaks of a busy block. -/
theorem inside_runLinesInv (x : Input) : (State.offering inside x).RunLinesInv :=
  ⟨(fun h => by cases h), fun _ =>
    ⟨0x50000C00, ready, (commandOps 0x50000C00 ready).take 20, rfl, rfl,
      ⟨(fun l _ => by cases l <;> rfl),
        (fun l b h => by
          cases l <;> cases b <;> first | exact ⟨rfl, rfl⟩ | exact absurd h (by decide +kernel)),
        fun h => absurd h (by decide +kernel)⟩,
      fun _ => ⟨rfl, (fun l => by cases l <;> rfl), ⟨0, rfl, Nat.zero_le _⟩, rfl, rfl⟩⟩⟩

theorem witness_EveryStepKeepsTheLinesInvariant_inside : ∃ s t : State, s.RunLinesInv ∧ s.busy = true ∧ step s = .next t ∧
    t.busy = true := ⟨_, _, inside_runLinesInv (.run 5), rfl, rfl, rfl⟩
theorem witness_EveryStepKeepsTheLinesInvariant : ∃ s t : State, s.isIdle ∧ s.LinesInv ∧ s.phase = .configured ∧
    step s = .next t ∧ t.busy = false ∧ t.phase = .sent :=
  ⟨_, _, ⟨rfl, rfl⟩, configured_linesInv (.cmd 0x60000000), rfl, rfl, by decide +kernel, by decide +kernel⟩
theorem witness_PausedCommandResumesExactly : ∃ s : State, s.inputs = [.run 5] ∧ s.busy = true :=
  ⟨State.offering inside (.run 5), rfl, rfl⟩
theorem witness_PausedOfferMatchesAtomicOffer : ready.busy = false ∧ ready.phase.live = true ∧
    (0 < (commandOps 0 ready).length ∧ (goAll ((commandOps 0 ready).take 0) ready).isSome = true) ∧
    (50 < (commandOps 0x50000C00 ready).length ∧ (goAll ((commandOps 0x50000C00 ready).take 50) ready).isSome = true) ∧
    (commandOps 0x50000C00 ready).length ≤ 51 ∧ goAll ((commandOps 0x70000000 ready).take 1) ready = none := by
  decide +kernel
theorem witness_PausedOfferMatchesAtomicOffer_run : ∃ s : State, s.busy = true ∧ s.inputs = [.run 30] ∧
    30 < s.seq.length ∧ (goAll (s.seq.take 30) s).isSome = true ∧ s.seq.length ≤ 31 :=
  ⟨State.offering inside (.run 30), rfl, rfl, by decide +kernel, by decide +kernel, by decide +kernel⟩
theorem witness_NoLineEventBeforeInit : ∃ s t : State, s.phase = .encode ∧ blockRuns .frameOut = true ∧
    (∀ n m k, Instr.frameOut ≠ .init n m k) ∧ exec .frameOut s = .next t :=
  ⟨fresh, _, rfl, rfl, (fun _ _ _ h => by cases h), rfl⟩
theorem witness_OnlyInitSamplesThePorts : ∃ s t : State, (∀ n m k, Instr.frameOut ≠ .init n m k) ∧
    exec .frameOut s = .next t :=
  ⟨ready, _, (fun _ _ _ h => by cases h), rfl⟩
theorem witness_FrameIsReadOnlyAfterInit : ∃ s t : State, s.phase = .configured ∧ exec .encClear s = .next t :=
  ⟨ready, _, rfl, rfl⟩
theorem witness_InitForgetsReceiverHistory : fresh.phase = .encode ∧ (0 : Byte) ≤ 7 ∧ (0 : Byte) ≤ 15 ∧
    fresh.platOk = true ∧ fresh.loadI = true := by decide
theorem witness_RunLatchesTheFourteenWords : fresh.phase = .encode ∧ encodable [0x2D#8, 0x31, 0x2E] = true ∧ (7 : Byte) ≤ 7 ∧ (8 : Byte) ≤ 15 ∧ fresh.platOk = true ∧ fresh.loadI = true := by decide

end Sys2Proof.Tests
end

section
/-! SUPPORT. The proofs about the state (10_state): what a micro-operation does not see and what it keeps, how a command pauses
and resumes, what cp counts, which micro-operations an instruction runs, and the reset values and output ports. -/

namespace Sys2Proof.Machine

/-! ### Micro-operations that do not see a change of the state -/

/-- A change of the state carried through what a micro-operation leads to. -/
def Flow.map (f : State → State) : Flow → Flow
  | .go s => .go (f s)
  | .stop s => .stop (f s)

/-- The state a micro-operation leads to, whether the command goes on or ends. -/
def Flow.state : Flow → State
  | .go s => s
  | .stop s => s

/-- The micro-operation does the same before the change `f` of the state as after it. -/
def Micro.Ignores (f : State → State) (m : Micro) : Prop := ∀ s, m.run (f s) = (m.run s).map f

/-- The micro-operation leaves the view `f` of the state as it is. -/
def Micro.Keeps {α : Type} (f : State → α) (m : Micro) : Prop := ∀ s, f (m.run s).state = f s

theorem runOps_ignores {f : State → State} {ops : List Micro} (h : ∀ m ∈ ops, m.Ignores f) (s : State) :
    runOps ops (f s) = f (runOps ops s) := by
  induction ops generalizing s with
  | nil => rfl
  | cons m ms ih =>
    have hm := h m List.mem_cons_self s
    have ih := ih fun m' h' => h m' (List.mem_cons_of_mem m h')
    cases hr : m.run s with
    | go t => rw [runOps_go hr, runOps_go (hm.trans (by rw [hr]; rfl)), ih]
    | stop t => rw [runOps_stop hr, runOps_stop (hm.trans (by rw [hr]; rfl))]

theorem runOps_keeps {α : Type} {f : State → α} {ops : List Micro} (h : ∀ m ∈ ops, m.Keeps f) (s : State) :
    f (runOps ops s) = f s := by
  induction ops generalizing s with
  | nil => rfl
  | cons m ms ih =>
    have hm := h m List.mem_cons_self s
    have ih := ih fun m' h' => h m' (List.mem_cons_of_mem m h')
    cases hr : m.run s with
    | go t => rw [runOps_go hr, ih]; simpa [hr, Flow.state] using hm
    | stop t => rw [runOps_stop hr]; simpa [hr, Flow.state] using hm

/-- A change of what is around the block: BUSY and the sequencer, the schedule, and the levels at the input ports. -/
def State.around (busy : Bool → Bool) (seq : List Micro → List Micro) (inputs : List Input → List Input)
    (platOk loadI : Bool → Bool) (s : State) : State :=
  { s with
    busy := busy s.busy
    seq := seq s.seq
    inputs := inputs s.inputs
    platOk := platOk s.platOk
    loadI := loadI s.loadI }

/-- No micro-operation sees BUSY, the sequencer or the schedule, and only PlatformSetup and LineRead see the ports (10_state R32).
A fault sets BUSY and the sequencer, so the change must keep them at their idle values. -/
theorem ignores_around {busy : Bool → Bool} {seq : List Micro → List Micro} {inputs : List Input → List Input}
    {platOk loadI : Bool → Bool} {m : Micro} (hbusy : busy false = false) (hseq : seq [] = [])
    (hplat : m = .platformSetup → platOk = id) (hload : m = .readLoad → loadI = id) :
    m.Ignores (State.around busy seq inputs platOk loadI) := by
  intro s
  cases m with
  | encodeDigit code =>
    by_cases h : s.cur.toNat < 8 <;>
      simp [Micro.run, State.encodeDigit, Flow.map, State.around, State.raise, h, hbusy, hseq]
  | encodeDp =>
    by_cases h : s.cur.toNat < 8 <;>
      simp [Micro.run, State.encodeDp, Flow.map, State.around, State.raise, h, hbusy, hseq]
  | platformSetup =>
    obtain rfl := hplat rfl
    cases h : s.platOk <;> simp [Micro.run, State.platformSetup, Flow.map, State.around, State.raise, h, hbusy, hseq]
  | readLoad =>
    obtain rfl := hload rfl
    cases h : s.loadI <;> simp [Micro.run, State.readLoad, Flow.map, State.around, State.raise, h, hbusy, hseq]
  | raise c x => simp [Micro.run, Flow.map, State.around, State.raise, hbusy, hseq]
  | _ => rfl

theorem ignores_idle (m : Micro) : m.Ignores State.idle :=
  ignores_around (busy := fun _ => false) (seq := fun _ => []) (inputs := id) rfl rfl (fun _ => rfl) (fun _ => rfl)

theorem ignores_inputs (m : Micro) (rest : List Input) : m.Ignores fun s => { s with inputs := rest } :=
  ignores_around (busy := id) (seq := id) (inputs := fun _ => rest) rfl rfl (fun _ => rfl) (fun _ => rfl)

theorem ignores_ports {m : Micro} (hplat : m ≠ .platformSetup) (hload : m ≠ .readLoad) (p l : Bool) :
    m.Ignores fun s => { s with platOk := p, loadI := l } :=
  ignores_around (busy := id) (seq := id) (inputs := id) (platOk := fun _ => p) (loadI := fun _ => l) rfl rfl
    (absurd · hplat) (absurd · hload)

/-- A command runs alike whatever BUSY and the sequencer hold when it starts. -/
theorem complete_idle (ops : List Micro) (s : State) : complete ops s.idle = complete ops s := by
  rw [complete, runOps_ignores fun m _ => ignores_idle m]
  rfl

/-- A command runs alike whatever is scheduled after it. -/
theorem complete_inputs (ops : List Micro) (rest : List Input) (s : State) :
    complete ops { s with inputs := rest } = { complete ops s with inputs := rest } :=
  congrArg State.idle (runOps_ignores (fun m _ => ignores_inputs m rest) s)

@[simp] theorem complete_busy (ops : List Micro) (s : State) : (complete ops s).busy = false := rfl

@[simp] theorem complete_seq (ops : List Micro) (s : State) : (complete ops s).seq = [] := rfl

/-! ### Pausing a command and resuming it -/

/-- A command run for `k` micro-operations either pauses, with the rest in the sequencer, or ends as the whole command does. -/
theorem runFor_cases (k : Nat) (ops : List Micro) (s : State) :
    (∃ v, goAll (ops.take k) s = some v ∧ runFor k ops s = { v with busy := true, seq := ops.drop k }) ∨
      runFor k ops s = complete ops s := by
  by_cases hk : k < ops.length
  · cases hg : goAll (ops.take k) s with
    | none => exact .inr (runFor_ends (.inr hg))
    | some v => exact .inl ⟨v, rfl, runFor_pauses hk hg⟩
  · exact .inr (runFor_ends (.inl (Nat.le_of_not_lt hk)))

/-- The rest of a paused command ends it as the whole command does (10_state R24). -/
theorem complete_drop {k : Nat} {ops q : List Micro} {s v : State} (h : goAll (ops.take k) s = some v) (b : Bool) :
    complete (ops.drop k) { v with busy := b, seq := q } = complete ops s :=
  calc complete (ops.drop k) { v with busy := b, seq := q }
    _ = complete (ops.drop k) v.idle := (complete_idle _ { v with busy := b, seq := q }).symm
    _ = complete (ops.drop k) v := complete_idle _ v
    _ = complete (ops.take k ++ ops.drop k) s := (complete_append h _).symm
    _ = complete ops s := by rw [List.take_append_drop]

theorem complete_runFor (k : Nat) (ops : List Micro) (s : State) :
    complete (runFor k ops s).seq (runFor k ops s) = complete ops s := by
  obtain ⟨v, hv, hr⟩ | hr := runFor_cases k ops s
  · rw [hr]; exact complete_drop hv true
  · rw [hr]; rfl

/-- A command that has ended counts once (10_state R23). -/
theorem countEnded_complete (ops : List Micro) (s : State) :
    (complete ops s).countEnded = { complete ops s with cp := s.cp + 1 } := by
  rw [State.countEnded, if_neg (by simp), complete_cp]

theorem finish_of_busy {s : State} (h : s.busy = true) : s.finish = { complete s.seq s with cp := s.cp + 1 } := by
  rw [State.finish, if_pos h, countEnded_complete]

theorem finish_of_not_busy {s : State} (h : s.busy = false) : s.finish = s := by
  rw [State.finish, if_neg (by simp [h])]

theorem continueCommand_of_busy {s : State} (h : s.busy = true) (k : Nat) :
    s.continueCommand k = s.runCommand k s.seq := by
  rw [State.continueCommand, if_pos h]

theorem continueCommand_of_not_busy {s : State} (h : s.busy = false) (k : Nat) : s.continueCommand k = s := by
  rw [State.continueCommand, if_neg (by simp [h])]

/-- Run to its end after a pause, an accepted command ends and counts as the whole command does (10_state R23, R24). -/
theorem finish_runCommand (k : Nat) (ops : List Micro) (s : State) :
    (s.runCommand k ops).finish = (complete ops s).countEnded := by
  obtain ⟨v, hv, hr⟩ | hr := runFor_cases k ops s
  · rw [State.runCommand, hr]
    exact congrArg State.countEnded (complete_drop hv true)
  · rw [State.runCommand, hr, finish_of_not_busy (by simp)]

theorem finish_continueCommand (k : Nat) (s : State) : (s.continueCommand k).finish = s.finish := by
  cases hb : s.busy with
  | false => rw [continueCommand_of_not_busy hb]
  | true => rw [continueCommand_of_busy hb, finish_runCommand, State.finish, if_pos hb]

theorem finish_inputs (rest : List Input) (s : State) :
    { s with inputs := rest : State }.finish = { s.finish with inputs := rest } := by
  rcases Bool.eq_false_or_eq_true s.busy with hb | hb
  · rw [finish_of_busy hb, finish_of_busy (s := { s with inputs := rest }) hb, complete_inputs]
  · rw [finish_of_not_busy hb, finish_of_not_busy (s := { s with inputs := rest }) hb]

/-- Settles O54: a pause leaves the rest of the command in the sequencer, and no micro-operation sees BUSY, the sequencer or the
schedule. -/
theorem pausedCommandResumesExactly : Obligations.PausedCommandResumesExactly := by
  refine ⟨complete_runFor, fun s k rest hi => ⟨{ s with inputs := rest : State }.continueCommand k, by rw [step, hi], ?_⟩⟩
  rw [finish_continueCommand, finish_inputs]

/-! ### What an instruction runs -/

/-- A command or a character runs its micro-operations as one command (10_state R24). -/
theorem exec_of_blockRuns {i : Instr} (h : blockRuns i = true) (s : State) : exec i s = .next (complete (opsOf i s) s) := by
  cases i <;> cases h <;> rfl

/-- A wire word is latched by the receiver, and the block does nothing (20_memory R64). -/
theorem exec_of_not_blockRuns {i : Instr} (h : blockRuns i = false) :
    ∃ a d, ∀ s, exec i s = .next (s.latchWord a d) := by
  cases i <;> cases h <;> exact ⟨_, _, fun _ => rfl⟩

theorem withReserved_ok {n : Nat} {w : Word} {r : BitVec n} {i j : Instr} (h : withReserved w r i = .ok j) : j = i := by
  unfold withReserved at h
  split at h <;> cases h
  rfl

/-- A command word decodes to an instruction of the block (30_encoding R82). -/
theorem blockRuns_of_decode_cmd32 {w : Word} {i : Instr} (h : decode (.cmd32 w) = .ok i) : blockRuns i = true := by
  simp only [decode, decodeCmd] at h
  split at h
  case h_8 => cases h
  all_goals
    rw [withReserved_ok h]
    rfl

/-- A wire word decodes to no instruction of the block (30_encoding R87). -/
theorem blockRuns_of_decode_wire16 {w : Wire} {i : Instr} (h : decode (.wire16 w) = .ok i) : blockRuns i = false := by
  simp only [decode, decodeWire, decodeWireFields] at h
  split at h <;> cases h <;> rfl

/-- A character decodes to a character row (30_encoding R90 to R93). -/
theorem blockRuns_decodeChar (c : Byte) : blockRuns (decodeChar c) = true := by
  unfold decodeChar
  split <;> rfl

/-! ### Offers -/

section
variable {s : State} (rest : List Input)

/-- An accepted command word runs its micro-operations to their end, and cp counts the command (42_control R162, R163). -/
theorem offer_cmd32 (h : s.accepts = true) (w : Word) :
    offer (.cmd32 w) rest s = .next (complete (commandOps w (s.accept rest)) (s.accept rest)).countEnded := by
  rw [offer, if_pos h, commandOps]
  cases hd : decode (.cmd32 w) with
  | ok i => simp only [exec_of_blockRuns (blockRuns_of_decode_cmd32 hd), countOutcome]
  | error e => rfl

/-- An accepted character runs its row's micro-operations to their end, and cp counts the command (42_control R163). -/
theorem offer_char8 (h : s.accepts = true) (c : Byte) :
    offer (.char8 c) rest s =
      .next (complete (opsOf (decodeChar c) (s.accept rest)) (s.accept rest)).countEnded := by
  simp only [offer, if_pos h, decode, exec_of_blockRuns (blockRuns_decodeChar c), countOutcome]

theorem offer_declined (h : s.accepts = false) (p : Packet) : offer p rest s = .next (s.declineOffer rest) := by
  rw [offer, if_neg (by simp [h])]

theorem beginCommand_accepted (h : s.accepts = true) (w : Word) (k : Nat) :
    beginCommand w k rest s = (s.accept rest).runCommand k (commandOps w (s.accept rest)) := by
  rw [beginCommand, if_pos h]

theorem beginCommand_declined (h : s.accepts = false) (w : Word) (k : Nat) :
    beginCommand w k rest s = s.declineOffer rest := by
  rw [beginCommand, if_neg (by simp [h])]

end

theorem runCommand_pauses {k : Nat} {ops : List Micro} {s v : State} (hk : k < ops.length)
    (h : goAll (ops.take k) s = some v) : s.runCommand k ops = { v with busy := true, seq := ops.drop k } := by
  rw [State.runCommand, runFor_pauses hk h, State.countEnded, if_pos rfl]

theorem runCommand_ends {k : Nat} {ops : List Micro} {s : State} (h : ops.length ≤ k ∨ goAll (ops.take k) s = none) :
    s.runCommand k ops = (complete ops s).countEnded := by
  rw [State.runCommand, runFor_ends h]

/-- Settles O55: the accepted command pauses or ends as `runFor` does, and the rest of it ends it as the whole command. -/
theorem pausedOfferMatchesAtomicOffer : Obligations.PausedOfferMatchesAtomicOffer := by
  constructor
  · intro s w k rest hbusy hlive u ops
    have ha (x : Input) : { s with inputs := x :: rest : State }.accepts = true := by simp [State.accepts, hbusy, hlive]
    have hbegin : step { s with inputs := .begin w k :: rest } = .next (u.runCommand k ops) :=
      congrArg Host.Outcome.next (beginCommand_accepted rest (ha _) w k)
    have hcmd : step { s with inputs := .cmd w :: rest } = .next (complete ops u).countEnded :=
      offer_cmd32 rest (ha _) w
    rw [hbegin, hcmd]
    refine ⟨⟨_, rfl, ?_⟩, fun v hk hv => ?_, fun he => ?_⟩
    · rw [finish_runCommand]
    · rw [runCommand_pauses hk hv]
    · rw [runCommand_ends he]
  · intro s k rest hbusy hi
    have hrun : step s = .next ({ s with inputs := rest : State }.runCommand k s.seq) := by
      rw [step, hi]
      exact congrArg Host.Outcome.next (continueCommand_of_busy (s := { s with inputs := rest }) hbusy k)
    rw [hrun]
    refine ⟨fun v hk hv => ?_, fun he => ?_⟩
    · rw [runCommand_pauses hk hv]
    · rw [runCommand_ends he, countEnded_complete]

/-! ### The command pointer -/

@[simp] theorem finish_busy (s : State) : s.finish.busy = false := by
  rcases Bool.eq_false_or_eq_true s.busy with hb | hb
  · rw [finish_of_busy hb]; rfl
  · rw [finish_of_not_busy hb, hb]

@[simp] theorem finish_cp (s : State) : s.finish.cp = s.cp + if s.busy then 1 else 0 := by
  rcases Bool.eq_false_or_eq_true s.busy with hb | hb
  · rw [finish_of_busy hb, if_pos hb]
  · rw [finish_of_not_busy hb, hb]; rfl

@[simp] theorem runCommand_cp (k : Nat) (ops : List Micro) (s : State) :
    (s.runCommand k ops).cp = s.cp + if (s.runCommand k ops).busy then 0 else 1 := by
  simp only [State.runCommand, countEnded_cp, countEnded_busy, runFor_cp]

/-- A step counts the command that ends in it: the one in progress, or the one it accepts if there is an offer (10_state R23). -/
def CountsEnded (offered : Bool) (s t : State) : Prop :=
  t.cp = s.cp + if t.busy = false ∧ (s.busy = true ∨ offered = true ∧ s.phase.live = true) then 1 else 0

/-- What leaves BUSY and cp counts no command, if it accepts none. -/
theorem countsEnded_of_same {s t : State} (hbusy : t.busy = s.busy) (hcp : t.cp = s.cp) : CountsEnded false s t := by
  cases hb : s.busy <;> simp [CountsEnded, hbusy, hcp, hb]

theorem countsEnded_finish (s : State) : CountsEnded false s s.finish := by
  simp [CountsEnded]

theorem countsEnded_continueCommand (s : State) (k : Nat) : CountsEnded false s (s.continueCommand k) := by
  cases hb : s.busy with
  | false =>
    rw [continueCommand_of_not_busy hb]
    exact countsEnded_of_same rfl rfl
  | true =>
    rw [continueCommand_of_busy hb, CountsEnded, runCommand_cp]
    cases (s.runCommand k s.seq).busy <;> simp [hb]

theorem accepts_eq_true {s : State} : s.accepts = true ↔ s.busy = false ∧ s.phase.live = true := by
  simp [State.accepts]

/-- An offer the block declines counts the command in progress, if any. -/
theorem countsEnded_declineOffer {s : State} (h : s.accepts = false) (rest : List Input) :
    CountsEnded true s (s.declineOffer rest) := by
  cases hb : s.busy with
  | true => simp [CountsEnded, State.declineOffer, hb]
  | false =>
    have hl : s.phase.live = false := by simpa [State.accepts, hb] using h
    simp [CountsEnded, State.declineOffer, hb, hl]

/-- An offer the block accepts counts its command once that has ended. -/
theorem countsEnded_runCommand {s : State} (h : s.accepts = true) (rest : List Input) (k : Nat) (ops : List Micro) :
    CountsEnded true s ((s.accept rest).runCommand k ops) := by
  obtain ⟨-, hl⟩ := accepts_eq_true.mp h
  rw [CountsEnded, runCommand_cp, accept_cp]
  cases ((s.accept rest).runCommand k ops).busy <;> simp [hl]

/-- A command run to its end and counted is one given all its micro-operations at once (10_state R24). -/
theorem complete_countEnded_eq (ops : List Micro) (s : State) :
    (complete ops s).countEnded = s.runCommand ops.length ops :=
  (runCommand_ends (.inl (Nat.le_refl _))).symm

/-- An accepted offer of a host unit runs all the micro-operations of some command. -/
theorem offer_accepted {s : State} (h : s.accepts = true) {p : Packet} (hp : ∀ w, p ≠ .wire16 w) (rest : List Input) :
    ∃ ops, offer p rest s = .next ((s.accept rest).runCommand ops.length ops) := by
  cases p with
  | cmd32 w => exact ⟨_, (offer_cmd32 rest h w).trans (congrArg _ (complete_countEnded_eq _ _))⟩
  | char8 c => exact ⟨_, (offer_char8 rest h c).trans (congrArg _ (complete_countEnded_eq _ _))⟩
  | wire16 w => exact absurd rfl (hp w)

theorem countsEnded_offer {s t : State} {p : Packet} (hp : ∀ w, p ≠ .wire16 w) {rest : List Input}
    (h : offer p rest s = .next t) : CountsEnded true s t := by
  cases ha : s.accepts with
  | true =>
    obtain ⟨ops, ho⟩ := offer_accepted ha hp rest
    cases ho.symm.trans h
    exact countsEnded_runCommand ha rest _ ops
  | false =>
    cases (offer_declined rest ha p).symm.trans h
    exact countsEnded_declineOffer ha rest

theorem countsEnded_beginCommand (s : State) (w : Word) (k : Nat) (rest : List Input) :
    CountsEnded true s (beginCommand w k rest s) := by
  cases ha : s.accepts with
  | true =>
    rw [beginCommand_accepted rest ha]
    exact countsEnded_runCommand ha rest _ _
  | false =>
    rw [beginCommand_declined rest ha]
    exact countsEnded_declineOffer ha rest

/-- A level on a pad changes the schedule and the receiver only (20_memory R65). -/
theorem padInput_next {l : Line} {b : Bool} {rest : List Input} {s t : State} (h : padInput l b rest s = .next t) :
    ∃ rx, t = { s with inputs := rest, rx := rx } := by
  unfold padInput at h
  split at h
  · cases h
  · split at h
    · split at h
      next i hd =>
        obtain ⟨a, d, he⟩ := exec_of_not_blockRuns (blockRuns_of_decode_wire16 hd)
        cases (he _).symm.trans h
        exact ⟨_, rfl⟩
      · cases h
        exact ⟨_, rfl⟩
    · cases h
      exact ⟨_, rfl⟩

theorem countsEnded_step {s t : State} (h : step s = .next t)
    (hx : ∀ x rest, s.inputs = x :: rest → x.isReset = false) : CountsEnded s.offered.isSome s t := by
  cases hi : s.inputs with
  | nil =>
    simp only [step, hi, State.offered] at h ⊢
    cases h
    exact countsEnded_finish s
  | cons x rest =>
    cases x <;> simp only [step, hi, State.offered] at h ⊢
    case cmd w => exact countsEnded_offer (by simp) h
    case char c => exact countsEnded_offer (by simp) h
    case begin w k =>
      cases h
      exact countsEnded_beginCommand s w k rest
    case run k =>
      cases h
      exact countsEnded_continueCommand { s with inputs := rest } k
    case plat b =>
      cases h
      exact countsEnded_of_same rfl rfl
    case loadIn b =>
      cases h
      exact countsEnded_of_same rfl rfl
    case pad l b =>
      obtain ⟨rx, rfl⟩ := padInput_next h
      exact countsEnded_of_same rfl rfl
    case reset d => cases hx _ _ hi

/-- Settles O14, by the head of the schedule: each input ends the command in progress, accepts one, or touches neither. -/
theorem commandPointerCountsAcceptedCommands : Obligations.CommandPointerCountsAcceptedCommands := by
  refine fun s t h => ⟨fun d rest hi => ?_, countsEnded_step h⟩
  simp only [step, hi] at h
  cases h
  rfl

/-! ### The micro-operations of each instruction -/

theorem mem_writeOps {m : Micro} {ws : List (Line × Bool)} (h : m ∈ writeOps ws) : ∃ l b, m = .write l b := by
  obtain ⟨w, -, rfl⟩ := List.mem_map.mp h
  exact ⟨_, _, rfl⟩

/-- The phase check adds at most the raise of SEQUENCE (42_control R161). -/
theorem mem_phaseCheck {need : Need} {s : State} {ops : List Micro} {m : Micro} (h : m ∈ phaseCheck need s ops) :
    m ∈ ops ∨ m = .raise .sequence 0 := by
  obtain ⟨-, he⟩ | ⟨-, he | he⟩ := phaseCheck_cases need s ops <;> rw [he] at h
  · cases h
  · exact .inl h
  · exact .inr (List.mem_singleton.mp h)

/-- After INIT the commands of the encoder and INIT raise SEQUENCE (42_control R161). -/
theorem phaseCheck_encoding_after_init {s : State} (h : s.phase = .configured ∨ s.phase = .sent) (ops : List Micro) :
    phaseCheck .encoding s ops = [.raise .sequence 0] := by
  rcases h with h | h <;> simp [phaseCheck, h]

/-- A micro-operation of the encoder's scan or of ENC_CLEAR (41_encoder R140, R142 to R144). -/
inductive Micro.OfEncoder : Micro → Prop
  | clearFrame : OfEncoder .clearFrame
  | encodeDigit (code : BitVec 4) : OfEncoder (.encodeDigit code)
  | encodeDp : OfEncoder .encodeDp
  | badChar (c : Byte) : OfEncoder (.raise .badChar c)

/-- A micro-operation that a command of the protocol driver but INIT, or HALT, can run (40_protocol R111, R113, R116, 42_control
R160). -/
inductive Micro.OfDriver : Micro → Prop
  | write (l : Line) (b : Bool) : OfDriver (.write l b)
  | enterSent : OfDriver .enterSent
  | halt : OfDriver .halt

/-- An instruction of the block is one step of the encoder, INIT, or a command of the driver or HALT; each checks its phase first
(42_control R161). -/
theorem opsOf_cases {i : Instr} (h : blockRuns i = true) (s : State) :
    (∃ m : Micro, m.OfEncoder ∧ opsOf i s = phaseCheck .encoding s [m]) ∨
    (∃ n m k, i = .init n m k) ∨
    (∃ need ops, (∀ m ∈ ops, Micro.OfDriver m) ∧ opsOf i s = phaseCheck need s ops) := by
  have hwrites (ws : List (Line × Bool)) : ∀ m ∈ writeOps ws, Micro.OfDriver m := by
    intro m hm
    obtain ⟨l, b, rfl⟩ := mem_writeOps hm
    exact .write l b
  cases i with
  | encClear => exact .inl ⟨_, .clearFrame, rfl⟩
  | encChar c =>
    refine .inl ?_
    simp only [opsOf, encCharOps]
    split
    · exact ⟨_, .encodeDigit _, rfl⟩
    · split
      · exact ⟨_, .encodeDp, rfl⟩
      · exact ⟨_, .badChar c, rfl⟩
  | init n m k => exact .inr (.inl ⟨n, m, k, rfl⟩)
  | shift16 v => exact .inr (.inr ⟨.configured, _, hwrites _, rfl⟩)
  | txn a d => exact .inr (.inr ⟨.configured, _, hwrites _, rfl⟩)
  | frameOut =>
    refine .inr (.inr ⟨.configured, _, fun m hm => ?_, rfl⟩)
    obtain hm | hm := List.mem_append.mp hm
    · exact hwrites _ m hm
    · cases List.mem_singleton.mp hm
      exact .enterSent
  | halt =>
    refine .inr (.inr ⟨.live, _, fun m hm => ?_, rfl⟩)
    cases List.mem_singleton.mp hm
    exact .halt
  | wireNoop | wireDigit0 | wireDigit1 | wireDigit2 | wireDigit3 | wireDigit4 | wireDigit5 | wireDigit6 | wireDigit7
  | wireDecodeMode | wireIntensity | wireScanLimit | wireShutdown | wireDisplayTest => cases h
  | charDot => exact .inl ⟨_, .encodeDp, rfl⟩
  | charInvalid c => exact .inl ⟨_, .badChar c, rfl⟩
  | _ => exact .inl ⟨_, .encodeDigit _, rfl⟩

/-- Only INIT runs the micro-operations that look at a port (40_protocol R114). -/
theorem not_port_of_mem_opsOf {i : Instr} (h : blockRuns i = true) (hi : ∀ n m k, i ≠ .init n m k) {s : State} {m : Micro}
    (hm : m ∈ opsOf i s) : m ≠ .platformSetup ∧ m ≠ .readLoad := by
  obtain ⟨m', he, ho⟩ | ⟨n, d, k, rfl⟩ | ⟨need, ops, hd, ho⟩ := opsOf_cases h s
  · rw [ho] at hm
    obtain hm | rfl := mem_phaseCheck hm
    · cases List.mem_singleton.mp hm
      cases he <;> exact ⟨nofun, nofun⟩
    · exact ⟨nofun, nofun⟩
  · exact absurd rfl (hi n d k)
  · rw [ho] at hm
    obtain hm | rfl := mem_phaseCheck hm
    · cases hd m hm <;> exact ⟨nofun, nofun⟩
    · exact ⟨nofun, nofun⟩

/-- After INIT a command runs micro-operations of the driver, HALT's, or the raise of SEQUENCE (42_control R161). -/
theorem ofDriver_of_mem_opsOf {i : Instr} (h : blockRuns i = true) {s : State} (hs : s.phase = .configured ∨ s.phase = .sent)
    {m : Micro} (hm : m ∈ opsOf i s) : m.OfDriver ∨ m = .raise .sequence 0 := by
  obtain ⟨m', -, ho⟩ | ⟨n, d, k, rfl⟩ | ⟨need, ops, hd, ho⟩ := opsOf_cases h s
  · rw [ho, phaseCheck_encoding_after_init hs] at hm
    exact .inr (List.mem_singleton.mp hm)
  · rw [opsOf, initOps, phaseCheck_encoding_after_init hs] at hm
    exact .inr (List.mem_singleton.mp hm)
  · rw [ho] at hm
    exact (mem_phaseCheck hm).imp_left (hd m)

/-! ### The input ports -/

/-- Which micro-operations an instruction runs does not depend on the ports. -/
theorem opsOf_ports (i : Instr) (s : State) (p l : Bool) : opsOf i { s with platOk := p, loadI := l } = opsOf i s := by
  cases i <;> rfl

/-- Settles O57: only INIT runs PlatformSetup or LineRead, and no other micro-operation sees the ports. -/
theorem onlyInitSamplesThePorts : Obligations.OnlyInitSamplesThePorts := by
  intro i s t p l hi h
  cases hb : blockRuns i with
  | false =>
    obtain ⟨a, d, he⟩ := exec_of_not_blockRuns hb
    cases (he s).symm.trans h
    exact he _
  | true =>
    have hports : ∀ m ∈ opsOf i s, m.Ignores fun s => { s with platOk := p, loadI := l } := fun m hm =>
      ignores_ports (not_port_of_mem_opsOf hb hi hm).1 (not_port_of_mem_opsOf hb hi hm).2 p l
    cases (exec_of_blockRuns hb s).symm.trans h
    rw [exec_of_blockRuns hb, opsOf_ports]
    exact congrArg (fun s => Host.Outcome.next (State.idle s)) (runOps_ignores hports s)

/-! ### The frame after INIT -/

/-- What INIT closes: F, CUR and OE (10_state R20, R22, R30). -/
def State.frameView (s : State) : Vector Byte 8 × BitVec 4 × Lines := (s.frame, s.cur, s.oe)

theorem keeps_frameView {m : Micro} (h : m.OfDriver ∨ m = .raise .sequence 0) : m.Keeps State.frameView := by
  intro s
  obtain h | rfl := h
  · cases h <;> rfl
  · rfl

/-- Settles O58: after INIT a command runs micro-operations of the driver, HALT's, or a raise, and none of these writes F, CUR or
OE. -/
theorem frameIsReadOnlyAfterInit : Obligations.FrameIsReadOnlyAfterInit := by
  intro i s t hs h
  cases hb : blockRuns i with
  | false =>
    obtain ⟨a, d, he⟩ := exec_of_not_blockRuns hb
    cases (he s).symm.trans h
    exact ⟨rfl, rfl, rfl⟩
  | true =>
    cases (exec_of_blockRuns hb s).symm.trans h
    have hv : (complete (opsOf i s) s).frameView = s.frameView :=
      runOps_keeps (fun m hm => keeps_frameView (ofDriver_of_mem_opsOf hb hs hm)) s
    simpa only [State.frameView, Prod.mk.injEq] using hv

/-! ### The ports, RESET and the start -/

/-- Settles O13: `plat` and `loadIn` write their port's level. -/
theorem portInputsSetThePorts : Obligations.PortInputsSetThePorts :=
  fun s _ _ => ⟨fun h => by simp only [step, h], fun h => by simp only [step, h]⟩

/-- Settles O18: RESET is `applyReset`, which writes every field of the block. -/
theorem resetRestoresBlockState : Obligations.ResetRestoresBlockState := by
  intro s d rest h
  simp only [step, h, State.applyReset]

/-- Settles O19, by the value of each field of the start state. -/
theorem startStateIsTheResetState : Obligations.StartStateIsTheResetState := by
  refine ⟨rfl, rfl, rfl, rfl, rfl, rfl, rfl, rfl, rfl, ?_, ?_, rfl, rfl⟩ <;> decide

theorem reset_encoderInv : State.reset.EncoderInv where
  cur_le := Nat.zero_le 8
  zero_bits i := by simp [State.reset]
  above_cur i _ := by simp [State.reset]
  at_cur i _ := by simp [State.reset]

theorem reset_blockInv : State.reset.BlockInv where
  encoder := reset_encoderInv
  record := ⟨nofun, rfl, rfl⟩
  sequencer := ⟨nofun, fun _ => rfl⟩

/-- In ENCODE the lines are not claimed to be anything. -/
theorem reset_linesInv : State.reset.LinesInv := nofun

/-- Settles O52: the start state is idle, in ENCODE, with an empty frame. -/
theorem startStateMeetsTheInvariants : Obligations.StartStateMeetsTheInvariants :=
  ⟨reset_blockInv, reset_linesInv, fun _ => reset_linesInv, nofun⟩

/-! ### The output ports -/

theorem getLsbD_of_bits {n k : Nat} {w : BitVec n} {b : Bool} (h : bits k 1 w = BitVec.ofBool b) : w.getLsbD k = b := by
  have h0 : (bits k 1 w).getLsbD 0 = (BitVec.ofBool b).getLsbD 0 := by rw [h]
  simpa using h0

/-- Settles O45: STATUS is a concatenation, and each field is the low part of what is left of it above the fields before. -/
theorem statusLayout : Obligations.StatusLayout := by
  intro s
  have hphase : bits 0 3 s.status = s.phase.code := bits_low _ _
  refine ⟨?_, ?_, ?_, ?_, ?_, getLsbD_of_bits ?_, getLsbD_of_bits ?_, getLsbD_of_bits ?_, getLsbD_of_bits ?_, ?_⟩
  · rw [hphase]
    cases s.phase <;> rfl
  all_goals
    simp only [State.status, bits_of_high, bits_low, BitVec.ofBool_false, BitVec.ofNat_eq_ofNat, BitVec.extractLsb'_eq_self,
      Nat.reduceLeDiff, Nat.reduceSub]

/-- Slot `i` of the FRAME port is the low part of what is left of it above the slots before (10_state R37). -/
theorem bits_framePort (s : State) (i : Fin 8) : bits (8 * i.val) 8 s.framePort = s.frame[i] := by
  fin_cases i
  all_goals
    simp only [State.framePort, bits_of_high, bits_low, BitVec.extractLsb'_eq_self, Nat.reduceLeDiff, Nat.reduceSub,
      Nat.reduceMul]
    rfl

theorem padOut_eq_some (s : State) (l : Line) (b : Bool) : s.padOut l = some b ↔ s.oe.get l = true ∧ s.lv.get l = b := by
  simp [State.padOut]

/-- Settles O46, with one lemma for each kind of port. -/
theorem outputPorts : Obligations.OutputPorts := fun s => ⟨bits_framePort s, padOut_eq_some s⟩

end Sys2Proof.Machine
end

section
/-! SUPPORT. The proofs about the receiver (20_memory): what it does on each edge, what sixteen CLK rising edges leave in RX_SR,
what a wire row latches, and what it sees on an undriven pad. -/

namespace Sys2Proof.Machine

/-! ### The shift register -/

/-- A shift drops the top bit and appends the level sampled (20_memory R63). -/
theorem shiftConcat_eq_append {n : Nat} (x : BitVec (n + 1)) (b : Bool) :
    x.shiftConcat b = (bits 0 n x : BitVec n) ++ BitVec.ofBool b := by
  apply BitVec.eq_of_getLsbD_eq
  intro i hi
  rw [BitVec.getLsbD_shiftConcat, BitVec.getLsbD_append]
  cases i with
  | zero => simp
  | succ k =>
    have hk : k < n := by omega
    simp [hk]

/-- After as many shifts as it takes to reach bit `i`, bit `i` is the level shifted in `i` places before the last. -/
theorem getLsbD_foldl_shiftConcat {n i : Nat} (x : BitVec n) (bs : List Bool) (hi : i < bs.length) (hn : i < n) :
    (bs.foldl BitVec.shiftConcat x).getLsbD i = bs.reverse.getD i false := by
  induction bs using List.reverseRecOn generalizing i with
  | nil => exact absurd hi (Nat.not_lt_zero i)
  | append_singleton bs b ih =>
    rw [List.foldl_concat, BitVec.getLsbD_shiftConcat, List.reverse_concat]
    cases i with
    | zero => simp [hn]
    | succ k =>
      have hk : k < bs.length := by simpa using hi
      simp [hn, ih hk (Nat.lt_of_succ_lt hn)]

/-- Whatever the receiver sees, RX_SR has shifted in the levels sampled, and nothing else (20_memory R63). -/
theorem seeAll_sr (r : Receiver) (ws : List (Line × Bool)) :
    (r.seeAll ws).sr = (samples r ws).foldl BitVec.shiftConcat r.sr := by
  induction ws generalizing r with
  | nil => rfl
  | cons w ws ih =>
    obtain ⟨l, b⟩ := w
    rw [seeAll_cons, ih, samples, List.foldl_append]
    congr 1
    cases l with
    | data => rfl
    | clk => cases b <;> cases h : r.clk <;> simp [Receiver.see, h]
    | load => cases b <;> cases h : r.load <;> simp [Receiver.see, Receiver.latch, h]

/-- The No-Op transaction flushes RX_SR and latches the No-Op word (20_memory R66). -/
theorem seeAll_noop (r : Receiver) :
    (r.seeAll (txnWrites 0 0)).sr = 0 ∧ (r.seeAll (txnWrites 0 0)).log.getLast? = some 0 := by
  have hword : wireWord 0 0 = 0 := rfl
  rw [seeAll_txnWrites, hword]
  exact ⟨rfl, List.getLast?_concat⟩

/-- Settles O49: RX_SR is the samples shifted in, and sixteen shifts leave no bit of what it held. -/
theorem sixteenClockEdgesFillTheShiftRegister : Obligations.SixteenClockEdgesFillTheShiftRegister := by
  refine ⟨fun r ws hlen j => ?_, seeAll_noop⟩
  have hj := j.isLt
  have hi : 15 - j.val < (samples r ws).length := by omega
  have hplace : (samples r ws).length - 1 - (15 - j.val) = j.val := by omega
  rw [seeAll_sr, getLsbD_foldl_shiftConcat _ _ hi (by omega), List.getD_reverse _ hi, hplace]

/-! ### Edges -/

theorem see_data (r : Receiver) (b : Bool) : r.see .data b = { r with data := b } := rfl

/-- On CLK the receiver shifts in RX_DATA at a rising edge, whatever LOAD is (20_memory R63). -/
theorem see_clk (r : Receiver) (b : Bool) :
    r.see .clk b =
      { r with
        sr := if r.clk = false ∧ b = true then (bits 0 15 r.sr : BitVec 15) ++ BitVec.ofBool r.data else r.sr
        clk := b } := by
  cases b <;> cases h : r.clk <;> simp [Receiver.see, h, shiftConcat_eq_append]

/-- A LOAD rising edge latches RX_SR (20_memory R63). -/
theorem see_load_edge {r : Receiver} (h : r.load = false) :
    r.see .load true = { r.latch r.sr with load := true } := by
  simp [Receiver.see, h]

/-- Any other level on LOAD latches nothing (20_memory R59, R63). -/
theorem see_load_level {r : Receiver} {b : Bool} (h : r.load = true ∨ b = false) :
    r.see .load b = { r with load := b } := by
  rcases h with h | h <;> simp [Receiver.see, h]

/-- Settles O47, with one lemma for each line and edge. -/
theorem receiverActsOnEdges : Obligations.ReceiverActsOnEdges := by
  intro r b
  refine ⟨see_data r b, fun hclk hb => ?_, fun h => ?_, fun hload hb => ?_, see_load_level, fun w => rfl⟩
  · rw [see_clk, if_pos ⟨hclk, hb⟩, hb]
  · have hedge : ¬ (r.clk = false ∧ b = true) := by rcases h with h | h <;> simp [h]
    rw [see_clk, if_neg hedge]
  · rw [hb, see_load_edge hload]

/-! ### Wire rows -/

/-- Latch of a word, by its address and data bytes (20_memory R64, 30_encoding R85). -/
theorem latch_wireWord (r : Receiver) (a d : Byte) :
    r.latch (wireWord a d) = { r with log := r.log ++ [a ++ d], reg := r.reg.set a.toNat d a.isLt } := by
  simp only [Receiver.latch, bits_address, bits_data]
  rfl

/-- A wire row latches its data at its own address (30_encoding R87). -/
theorem exec_of_mem_wireRows {d : Byte} {r : Instr × Byte} (h : r ∈ wireRows d) (s : State) :
    exec r.1 s = .next (s.latchWord r.2 d) := by
  fin_cases h <;> rfl

/-- Settles O48: each row is `latchWord` at its address, and that is Latch of the row's word. -/
theorem wireRowsLatchTheirWord : Obligations.WireRowsLatchTheirWord := by
  intro d s r hr
  rw [exec_of_mem_wireRows hr, State.latchWord, latch_wireWord]

/-! ### Undriven pads -/

section
variable {s : State} {rest : List Input}

/-- A level that is no LOAD rising edge is seen, and no word runs (20_memory R63, R65). -/
theorem step_pad_level {l : Line} {b : Bool} (hi : s.inputs = .pad l b :: rest) (hoe : s.oe.get l = false)
    (hedge : s.rx.latchesOn l b = false) : step s = .next { s with inputs := rest, rx := s.rx.see l b } := by
  simp [step, hi, padInput, hoe, hedge]

/-- A LOAD rising edge runs the wire word in RX_SR (20_memory R63, R64; log 14). -/
theorem step_pad_edge_named (hi : s.inputs = .pad .load true :: rest) (hoe : s.oe.load = false) (hload : s.rx.load = false)
    {i : Instr} (hd : decode (.wire16 s.rx.sr) = .ok i) :
    step s = exec i { s with inputs := rest, rx := { s.rx with load := true } } := by
  simp [step, hi, padInput, Lines.get, hoe, Receiver.latchesOn, hload, hd]

/-- A LOAD rising edge latches a word whose address has no name (20_memory R68). -/
theorem step_pad_edge_unnamed (hi : s.inputs = .pad .load true :: rest) (hoe : s.oe.load = false)
    (hload : s.rx.load = false) {e : DecodeError} (hd : decode (.wire16 s.rx.sr) = .error e) :
    step s = .next { s with inputs := rest, rx := { s.rx.latch s.rx.sr with load := true } } := by
  simp [step, hi, padInput, Lines.get, hoe, Receiver.latchesOn, hload, hd, Receiver.latch]

end

/-- Settles O8: a LOAD rising edge runs or latches the word in RX_SR, and every other level is seen by the receiver. -/
theorem padEdgeRunsTheWireWord : Obligations.PadEdgeRunsTheWireWord := by
  intro s rest
  refine ⟨fun i hoe hload hi hd => step_pad_edge_named hi hoe hload hd,
    fun e hoe hload hi hd => step_pad_edge_unnamed hi hoe hload hd,
    fun b hoe h hi => ?_, fun b hoe hi => step_pad_level hi hoe rfl, fun b hoe hi => ?_⟩
  · have hedge : s.rx.latchesOn .load b = false := by rcases h with h | h <;> simp [Receiver.latchesOn, h]
    rw [step_pad_level hi hoe hedge, see_load_level h]
  · rw [step_pad_level hi hoe rfl, see_clk]

end Sys2Proof.Machine
end

section
/-! SUPPORT. The proofs about the encoding (30_encoding): the fields of a command word, what each unit decodes to and from, the
rows that select a word, and the character ROM. -/

namespace Sys2Proof.Machine

/-! ### Fields of a word -/

/-- Two fields side by side are one field (00_scope R10). -/
theorem bits_append_bits {n : Nat} (w : BitVec n) (lo len len' : Nat) :
    (bits (lo + len) len' w : BitVec len') ++ (bits lo len w : BitVec len) = (bits lo (len' + len) w : BitVec (len' + len)) :=
  BitVec.extractLsb'_append_extractLsb'_eq_extractLsb' rfl

/-- OP and the reserved bits below it, if these are 0 (30_encoding R81, R83). -/
theorem bits_of_op {w : Word} {lo len : Nat} {op : BitVec 4} (hop : bits (lo + len) 4 w = op) (hres : bits lo len w = 0) :
    bits lo (4 + len) w = op ++ 0#len := by
  rw [← bits_append_bits, hop, hres]
  rfl

/-- A word whose high part a mask finds to be `a` (30_encoding R82). -/
theorem bits_of_masked {m n : Nat} {w : BitVec (m + n)} {a : BitVec m}
    (h : w &&& (BitVec.allOnes m ++ 0#n) = a ++ 0#n) : bits n m w = a := by
  rw [← BitVec.extractLsb'_append_extractLsb' (x := w), Laws.append_and_high] at h
  rw [← bits_high (bits n m w) 0#n, h, bits_high]

theorem eq_ofNat_of_toNat {n k : Nat} {x : BitVec n} (h : x.toNat = k) : x = BitVec.ofNat n k := by
  rw [← h, BitVec.ofNat_toNat, BitVec.setWidth_eq]

/-! ### Command words -/

theorem withReserved_eq_ok {n : Nat} {w : Word} {r : BitVec n} {i j : Instr} :
    withReserved w r i = .ok j ↔ r = 0 ∧ i = j := by
  unfold withReserved
  split
  · next h => simp [h]
  · next h => exact ⟨nofun, fun hr => absurd hr.1 h⟩

section
variable {w : Word}

/-! What each known OP decodes to (30_encoding R82). -/

theorem decodeCmd_op1 (h : bits 28 4 w = 1#4) : decodeCmd w = withReserved w (bits 0 28 w) .encClear := by
  rw [decodeCmd, h]; rfl

theorem decodeCmd_op2 (h : bits 28 4 w = 2#4) :
    decodeCmd w = withReserved w (bits 8 20 w) (.encChar (bits 0 8 w)) := by
  rw [decodeCmd, h]; rfl

theorem decodeCmd_op3 (h : bits 28 4 w = 3#4) :
    decodeCmd w = withReserved w (bits 24 4 w) (.init (bits 16 8 w) (bits 8 8 w) (bits 0 8 w)) := by
  rw [decodeCmd, h]; rfl

theorem decodeCmd_op4 (h : bits 28 4 w = 4#4) :
    decodeCmd w = withReserved w (bits 16 12 w) (.shift16 (bits 0 16 w)) := by
  rw [decodeCmd, h]; rfl

theorem decodeCmd_op5 (h : bits 28 4 w = 5#4) :
    decodeCmd w = withReserved w (bits 16 12 w) (.txn (bits 8 8 w) (bits 0 8 w)) := by
  rw [decodeCmd, h]; rfl

theorem decodeCmd_op6 (h : bits 28 4 w = 6#4) : decodeCmd w = withReserved w (bits 0 28 w) .frameOut := by
  rw [decodeCmd, h]; rfl

theorem decodeCmd_op7 (h : bits 28 4 w = 7#4) : decodeCmd w = withReserved w (bits 0 28 w) .halt := by
  rw [decodeCmd, h]; rfl

/-! A word whose fixed part is a row's is the encoding of that row with the word's operands (30_encoding R82, R84). -/

theorem encode_encChar_bits (h : bits 8 24 w = 0x200000#24) : encode (.encChar (bits 0 8 w)) = .cmd32 w := by
  rw [encode, ← h]
  exact congrArg Packet.cmd32 (BitVec.extractLsb'_append_extractLsb' (w := 24) (len := 8))

theorem encode_init_bits (h : bits 24 8 w = 0x30#8) :
    encode (.init (bits 16 8 w) (bits 8 8 w) (bits 0 8 w)) = .cmd32 w := by
  have hlow : (bits 16 8 w : Byte) ++ ((bits 8 8 w : Byte) ++ (bits 0 8 w : Byte)) = (bits 0 24 w : BitVec 24) := by
    rw [bits_append_bits w 0 8 8]
    exact bits_append_bits w 0 16 8
  rw [encode, ← h, hlow]
  exact congrArg Packet.cmd32 (BitVec.extractLsb'_append_extractLsb' (w := 8) (len := 24))

theorem encode_shift16_bits (h : bits 16 16 w = 0x4000#16) : encode (.shift16 (bits 0 16 w)) = .cmd32 w := by
  rw [encode, ← h]
  exact congrArg Packet.cmd32 (BitVec.extractLsb'_append_extractLsb' (w := 16) (len := 16))

theorem encode_txn_bits (h : bits 16 16 w = 0x5000#16) : encode (.txn (bits 8 8 w) (bits 0 8 w)) = .cmd32 w := by
  rw [encode, ← h, bits_append_bits w 0 8 8]
  exact congrArg Packet.cmd32 (BitVec.extractLsb'_append_extractLsb' (w := 16) (len := 16))

/-! The operands of an encoded command (30_encoding R84). -/

theorem init_bits (p n m k : Byte) :
    Instr.init (bits 16 8 (p ++ (n ++ (m ++ k)))) (bits 8 8 (p ++ (n ++ (m ++ k)))) (bits 0 8 (p ++ (n ++ (m ++ k)))) =
      .init n m k := by
  have hn : bits 16 8 (p ++ (n ++ (m ++ k))) = n := (bits_of_low p _ (by decide)).trans (bits_high n (m ++ k))
  have hm : bits 8 8 (p ++ (n ++ (m ++ k))) = m :=
    (bits_of_low p _ (by decide)).trans ((bits_of_low n _ (by decide)).trans (bits_high m k))
  have hk : bits 0 8 (p ++ (n ++ (m ++ k))) = k :=
    (bits_of_low p _ (by decide)).trans ((bits_of_low n _ (by decide)).trans (bits_low m k))
  rw [hn, hm, hk]

theorem txn_bits (p : BitVec 16) (a d : Byte) : Instr.txn (bits 8 8 (p ++ (a ++ d))) (bits 0 8 (p ++ (a ++ d))) = .txn a d := by
  have ha : bits 8 8 (p ++ (a ++ d)) = a := (bits_of_low p _ (by decide)).trans (bits_high a d)
  have hd : bits 0 8 (p ++ (a ++ d)) = d := (bits_of_low p _ (by decide)).trans (bits_low a d)
  rw [ha, hd]

end

/-! The fixed part of an encoded command holds its OP and reserved bits of 0 (30_encoding R81, R83). -/

theorem decode_encode_encChar (c : Byte) : decode (encode (.encChar c)) = .ok (.encChar c) := by
  have hop : bits 28 4 (0x200000#24 ++ c) = 2#4 := bits_of_high _ c (by decide)
  have hres : bits 8 20 (0x200000#24 ++ c) = 0#20 := bits_of_high _ c (by decide)
  rw [encode, decode, decodeCmd_op2 hop, withReserved_eq_ok, bits_low]
  exact ⟨hres, rfl⟩

theorem decode_encode_init (n m k : Byte) : decode (encode (.init n m k)) = .ok (.init n m k) := by
  have hop : bits 28 4 (0x30#8 ++ (n ++ (m ++ k))) = 3#4 := bits_of_high _ (n ++ (m ++ k)) (by decide)
  have hres : bits 24 4 (0x30#8 ++ (n ++ (m ++ k))) = 0#4 := bits_of_high _ (n ++ (m ++ k)) (by decide)
  rw [encode, decode, decodeCmd_op3 hop, withReserved_eq_ok]
  exact ⟨hres, init_bits 0x30 n m k⟩

theorem decode_encode_shift16 (v : Wire) : decode (encode (.shift16 v)) = .ok (.shift16 v) := by
  have hop : bits 28 4 (0x4000#16 ++ v) = 4#4 := bits_of_high _ v (by decide)
  have hres : bits 16 12 (0x4000#16 ++ v) = 0#12 := bits_of_high _ v (by decide)
  rw [encode, decode, decodeCmd_op4 hop, withReserved_eq_ok, bits_low]
  exact ⟨hres, rfl⟩

theorem decode_encode_txn (a d : Byte) : decode (encode (.txn a d)) = .ok (.txn a d) := by
  have hop : bits 28 4 (0x5000#16 ++ (a ++ d)) = 5#4 := bits_of_high _ (a ++ d) (by decide)
  have hres : bits 16 12 (0x5000#16 ++ (a ++ d)) = 0#12 := bits_of_high _ (a ++ d) (by decide)
  rw [encode, decode, decodeCmd_op5 hop, withReserved_eq_ok]
  exact ⟨hres, txn_bits 0x5000 a d⟩

/-- A word with only OP set is the row's one encoding (30_encoding R82). -/
theorem cmd32_of_op {w : Word} {op : BitVec 4} (hop : bits 28 4 w = op) (hres : bits 0 28 w = 0) :
    Packet.cmd32 (op ++ 0#28) = .cmd32 w := by
  rw [← bits_of_op hop hres]
  exact congrArg Packet.cmd32 BitVec.extractLsb'_eq_self

theorem encode_of_decodeCmd {w : Word} {i : Instr} (h : decodeCmd w = .ok i) : encode i = .cmd32 w ∧ i.WF = true := by
  unfold decodeCmd at h
  split at h
  case h_8 => cases h
  all_goals
    rename_i hop
    replace hop := eq_ofNat_of_toNat hop
    obtain ⟨hres, rfl⟩ := withReserved_eq_ok.mp h
    refine ⟨?_, rfl⟩
  · exact cmd32_of_op hop hres
  · exact encode_encChar_bits (bits_of_op hop hres)
  · exact encode_init_bits (bits_of_op hop hres)
  · exact encode_shift16_bits (bits_of_op hop hres)
  · exact encode_txn_bits (bits_of_op hop hres)
  · exact cmd32_of_op hop hres
  · exact cmd32_of_op hop hres

/-! ### Wire words -/

theorem decodeWire_wireWord (a d : Byte) : decodeWire (wireWord a d) = decodeWireFields a d := by
  rw [decodeWire, bits_address, bits_data]

theorem encode_of_decodeWireFields {a d : Byte} {i : Instr} (h : decodeWireFields a d = .ok i) :
    encode i = .wire16 (wireWord a d) ∧ i.WF = true := by
  unfold decodeWireFields at h
  split at h <;> cases h
  all_goals
    next ha =>
    rw [eq_ofNat_of_toNat ha]
    exact ⟨rfl, rfl⟩

/-! ### Characters -/

/-- Any character but the 21 valid ones is the default row (30_encoding R93). -/
theorem decodeChar_of_not_valid {c : Byte} (hc : c ∉ validChars) : decodeChar c = .charInvalid c := by
  unfold decodeChar
  split
  case h_22 => rfl
  all_goals
    next h =>
    rw [eq_ofNat_of_toNat h] at hc
    exact absurd hc (by decide)

theorem encode_decodeChar_of_valid : ∀ c ∈ validChars, encode (decodeChar c) = .char8 c ∧ (decodeChar c).WF = true := by
  decide

theorem encode_decodeChar (c : Byte) : encode (decodeChar c) = .char8 c ∧ (decodeChar c).WF = true := by
  by_cases hc : c ∈ validChars
  · exact encode_decodeChar_of_valid c hc
  · rw [decodeChar_of_not_valid hc]
    exact ⟨rfl, by simpa [Instr.WF] using hc⟩

/-- Settles O1: each command by its fields, each wire word by its address, and each character by its row; only the default
row needs WF. -/
theorem decodeEncodeRoundTrip : Obligations.DecodeEncodeRoundTrip := by
  intro i hwf
  cases i with
  | encChar c => exact decode_encode_encChar c
  | init n m k => exact decode_encode_init n m k
  | shift16 v => exact decode_encode_shift16 v
  | txn a d => exact decode_encode_txn a d
  | charInvalid c =>
    have hc : c ∉ validChars := by simpa [Instr.WF] using hwf
    exact congrArg Except.ok (decodeChar_of_not_valid hc)
  | wireNoop d | wireDigit0 d | wireDigit1 d | wireDigit2 d | wireDigit3 d | wireDigit4 d | wireDigit5 d | wireDigit6 d
  | wireDigit7 d | wireDecodeMode d | wireIntensity d | wireScanLimit d | wireShutdown d | wireDisplayTest d =>
    exact decodeWire_wireWord _ d
  | _ => rfl

/-- Settles O2, with one lemma for each unit: what the decoder reads off a unit is all there is in it. -/
theorem encodeDecodeRoundTrip : Obligations.EncodeDecodeRoundTrip := by
  intro p i h
  cases p with
  | cmd32 w => exact encode_of_decodeCmd h
  | wire16 w =>
    rw [wire_eq_append w]
    exact encode_of_decodeWireFields h
  | char8 c =>
    cases h
    exact encode_decodeChar c

/-! ### The rows of command words -/

/-- The decoder and the encoder agree on which instruction a command word stands for. -/
theorem decode_cmd32_eq_ok {w : Word} {i : Instr} : decode (.cmd32 w) = .ok i ↔ encode i = .cmd32 w := by
  refine ⟨fun h => (encodeDecodeRoundTrip _ i h).1, fun h => ?_⟩
  have hwf : i.WF = true := by
    cases i with
    | charInvalid c => cases h
    | _ => rfl
  rw [← h]
  exact decodeEncodeRoundTrip i hwf

/-- The row selects the word and stands for the instruction there (30_encoding R82). -/
def SelectsAs (r : Word × Word × (Word → Instr)) (w : Word) (i : Instr) : Prop := w &&& r.2.1 = r.1 ∧ r.2.2 w = i

/-- A command's own row selects its encoding and gives its operands back. -/
theorem exists_row_of_encode {w : Word} {i : Instr} (h : encode i = .cmd32 w) : ∃ r ∈ cmdRows, SelectsAs r w i := by
  cases i <;> cases h
  case encClear => exact ⟨_, List.mem_of_getElem? (i := 0) rfl, rfl, rfl⟩
  case encChar c =>
    exact ⟨_, List.mem_of_getElem? (i := 1) rfl, (Laws.RowSelects.encChar c).2, congrArg Instr.encChar (bits_low _ c)⟩
  case init n m k =>
    exact ⟨_, List.mem_of_getElem? (i := 2) rfl, (Laws.RowSelects.init n m k).2, init_bits _ n m k⟩
  case shift16 v =>
    exact ⟨_, List.mem_of_getElem? (i := 3) rfl, (Laws.RowSelects.shift16 v).2, congrArg Instr.shift16 (bits_low _ v)⟩
  case txn a d =>
    exact ⟨_, List.mem_of_getElem? (i := 4) rfl, (Laws.RowSelects.txn a d).2, txn_bits _ a d⟩
  case frameOut => exact ⟨_, List.mem_of_getElem? (i := 5) rfl, rfl, rfl⟩
  case halt => exact ⟨_, List.mem_of_getElem? (i := 6) rfl, rfl, rfl⟩

/-- A word that a row selects is the encoding of the instruction the row stands for there. -/
theorem encode_of_selectsAs {r : Word × Word × (Word → Instr)} (hr : r ∈ cmdRows) {w : Word} {i : Instr}
    (h : SelectsAs r w i) : encode i = .cmd32 w := by
  obtain ⟨hmask, rfl⟩ := h
  fin_cases hr
  · exact congrArg Packet.cmd32 (hmask.symm.trans BitVec.and_allOnes)
  · exact encode_encChar_bits (bits_of_masked (m := 24) (n := 8) hmask)
  · exact encode_init_bits (bits_of_masked (m := 8) (n := 24) hmask)
  · exact encode_shift16_bits (bits_of_masked (m := 16) (n := 16) hmask)
  · exact encode_txn_bits (bits_of_masked (m := 16) (n := 16) hmask)
  · exact congrArg Packet.cmd32 (hmask.symm.trans BitVec.and_allOnes)
  · exact congrArg Packet.cmd32 (hmask.symm.trans BitVec.and_allOnes)

/-- Every mask covers OP, so a word has the OP of a row that selects it (30_encoding R81, R82). -/
theorem op_eq_of_selects {r : Word × Word × (Word → Instr)} (hr : r ∈ cmdRows) {w : Word} (h : w &&& r.2.1 = r.1) :
    (bits 28 4 w : BitVec 4) = bits 28 4 r.1 := by
  have hmask : ∀ r ∈ cmdRows, (bits 28 4 r.2.1 : BitVec 4) = BitVec.allOnes 4 := by decide
  calc (bits 28 4 w : BitVec 4)
    _ = bits 28 4 w &&& bits 28 4 r.2.1 := by rw [hmask r hr, BitVec.and_allOnes]
    _ = bits 28 4 (w &&& r.2.1) := BitVec.extractLsb'_and.symm
    _ = bits 28 4 r.1 := by rw [h]

/-- The rows have different OPs (30_encoding R82). -/
theorem countP_op_le_one : ∀ op : BitVec 4, (cmdRows.countP fun r => op == bits 28 4 r.1) ≤ 1 := by decide

/-- Settles O3: a row selects exactly the encodings of its own instruction, and no two rows have the same OP. -/
theorem commandWordSelectsAtMostOneRow : Obligations.CommandWordSelectsAtMostOneRow := by
  refine ⟨fun w i => ?_, fun w => ?_⟩
  · rw [decode_cmd32_eq_ok]
    exact ⟨exists_row_of_encode, fun ⟨_, hr, h⟩ => encode_of_selectsAs hr h⟩
  · rw [← List.countP_eq_length_filter]
    calc cmdRows.countP (fun r => w &&& r.2.1 == r.1)
      _ ≤ cmdRows.countP (fun r => (bits 28 4 w : BitVec 4) == bits 28 4 r.1) :=
        List.countP_mono_left fun r hr h => beq_iff_eq.mpr (op_eq_of_selects hr (beq_iff_eq.mp h))
      _ ≤ 1 := countP_op_le_one _

/-- Settles O4, word by word. -/
theorem sampleWordsDecode : Obligations.SampleWordsDecode :=
  ⟨rfl, rfl, rfl, rfl, rfl, rfl, rfl, rfl, rfl, rfl, rfl, rfl, rfl⟩

/-! ### The character ROM -/

/-- A decimal digit is 0x30 and its value, which is below 10 (30_encoding R90). -/
theorem eq_add_of_decimal {c : Byte} (hlo : 0x30 ≤ c) (hhi : c ≤ 0x39) : ∃ d : Fin 10, c = 0x30 + BitVec.ofNat 8 d.val := by
  have hlt : (c - 0x30).toNat < 10 := by bv_omega
  exact ⟨⟨(c - 0x30).toNat, hlt⟩, by rw [BitVec.ofNat_toNat, BitVec.setWidth_eq, add_sub_cancel]⟩

/-- Settles O5: one entry of the table for each value of the digit. -/
theorem decimalDigitRomEntries : Obligations.DecimalDigitRomEntries := by
  have hrom : ∀ d : Fin 10, crom (0x30 + BitVec.ofNat 8 d.val) = 1#2 ++ (bits 0 4 (BitVec.ofNat 8 d.val) : BitVec 4) := by
    decide
  intro c hlo hhi
  obtain ⟨d, rfl⟩ := eq_add_of_decimal hlo hhi
  rw [hrom, add_sub_cancel_left]

/-- A character outside the valid set has no entry in the table (30_encoding R93). -/
theorem crom_of_not_valid {c : Byte} (hc : c ∉ validChars) : crom c = 0 := by
  have hkeys : cromTable.map Prod.fst = validChars := rfl
  have hnone : cromTable.lookup c = none := by
    rw [List.lookup_eq_none_iff]
    intro p hp
    have hmem : p.1 ∈ validChars := hkeys ▸ List.mem_map_of_mem hp
    exact bne_iff_ne.mpr fun h => hc (h ▸ hmem)
  rw [crom, hnone]
  rfl

theorem mem_validChars_iff (c : Byte) : c ∈ validChars ↔ crom c ≠ 0 := by
  have hvalid : ∀ c ∈ validChars, crom c ≠ 0 := by decide
  exact ⟨hvalid c, fun h => by_contra fun hc => h (crom_of_not_valid hc)⟩

theorem mem_validChars_of_isDigitChar {c : Byte} (h : isDigitChar c = true) : c ∈ validChars := by
  refine by_contra fun hc => ?_
  rw [isDigitChar, crom_of_not_valid hc] at h
  cases h

/-- Of all 256 characters, those with a property are as many as a list of them holds. -/
theorem countP_char {p : Byte → Bool} {cs : List Byte} (hcs : cs.Nodup) (hp : ∀ c, c ∈ cs ↔ p c = true) :
    ((List.range 256).countP fun n => p (BitVec.ofNat 8 n)) = cs.length := by
  have hinj : ∀ x ∈ List.range 256, ∀ y ∈ List.range 256, BitVec.ofNat 8 x = BitVec.ofNat 8 y → x = y := by
    intro x hx y hy h
    have hx := List.mem_range.mp hx
    have hy := List.mem_range.mp hy
    bv_omega
  have hall (c : Byte) : c ∈ (List.range 256).map (BitVec.ofNat 8) :=
    List.mem_map.mpr ⟨c.toNat, List.mem_range.mpr c.isLt, by simp⟩
  have hperm : (((List.range 256).map (BitVec.ofNat 8)).filter p).Perm cs :=
    (List.perm_ext_iff_of_nodup ((List.nodup_range.map_on hinj).filter p) hcs).mpr fun c => by
      rw [List.mem_filter, hp]
      exact and_iff_right (hall c)
  rw [← hperm.length_eq, ← List.countP_eq_length_filter, List.countP_map]
  rfl

theorem countP_isDigitChar : ((List.range 256).countP fun n => isDigitChar (BitVec.ofNat 8 n)) = 20 := by
  refine countP_char (cs := validChars.filter isDigitChar) (by decide) fun c => ?_
  rw [List.mem_filter, and_iff_right_of_imp mem_validChars_of_isDigitChar]

/-- The INVALID characters are all but the 21 valid ones. -/
theorem countP_invalid : ((List.range 256).countP fun n => crom (BitVec.ofNat 8 n) == 0) = 235 := by
  have hvalid : ((List.range 256).countP fun n => crom (BitVec.ofNat 8 n) != 0) = 21 :=
    countP_char (cs := validChars) (p := fun c => crom c != 0) (by decide) fun c => by
      rw [mem_validChars_iff, bne_iff_ne]
  have hsum := List.length_eq_countP_add_countP (fun n => crom (BitVec.ofNat 8 n) == 0) (l := List.range 256)
  have hnot : ((List.range 256).countP fun n => decide (¬(crom (BitVec.ofNat 8 n) == 0) = true)) = 21 := by
    rw [← hvalid]
    exact List.countP_congr fun n _ => by simp
  rw [hnot, List.length_range] at hsum
  omega

/-- Settles O6: the table's own entries, no entry elsewhere, and the counts from the 21 valid characters. -/
theorem symbolRomEntries : Obligations.SymbolRomEntries := by
  refine ⟨rfl, rfl, rfl, rfl, rfl, rfl, rfl, rfl, rfl, rfl, rfl, fun c hc => ?_, countP_isDigitChar, countP_invalid⟩
  exact crom_of_not_valid (by simpa using hc)

/-! ### Offers of a character -/

/-- The ROM's class and code of a character are those of its row (41_encoder R141). -/
theorem opsOf_decodeChar (c : Byte) (s : State) : opsOf (decodeChar c) s = encCharOps c s := by
  by_cases hc : c ∈ validChars
  · fin_cases hc <;> rfl
  · rw [decodeChar_of_not_valid hc, encCharOps, crom_of_not_valid hc]
    rfl

/-- Settles O10: both offers are accepted and run the same micro-operations, since the ROM and the character rows agree. -/
theorem charOfferIsEncChar : Obligations.CharOfferIsEncChar := by
  intro s c rest hbusy hlive
  have ha (x : Input) : { s with inputs := x :: rest : State }.accepts = true := accepts_eq_true.mpr ⟨hbusy, hlive⟩
  calc step { s with inputs := .char c :: rest }
    _ = offer (.char8 c) rest { s with inputs := .char c :: rest } := rfl
    _ = _ := offer_char8 rest (ha _) c
    _ = offer (encode (.encChar c)) rest { s with inputs := .cmd (0x200000#24 ++ c) :: rest } := by
      rw [encode, offer_cmd32 rest (ha _), commandOps, ← encode, decode_encode_encChar, opsOf_decodeChar]
      rfl

end Sys2Proof.Machine
end

section
/-! SUPPORT. The proof about RUN (30_encoding R95): what the encoder leaves for a string, and what INIT, FRAME_OUT and HALT do
after it. -/

namespace Sys2Proof.Machine

/-! ### A list of commands -/

theorem runInstrs_cons {i : Instr} {s t : State} (h : exec i s = .next t) (is : List Instr) :
    runInstrs (i :: is) s = if t.phase.live then runInstrs is t else t := by
  simp only [runInstrs, h]

theorem runInstrs_cons_live {i : Instr} {s t : State} (h : exec i s = .next t) (hl : t.phase.live = true) (is : List Instr) :
    runInstrs (i :: is) s = runInstrs is t := by
  rw [runInstrs_cons h, if_pos hl]

/-- The last command of a list leaves what it leaves, whether the run ends there or not. -/
theorem runInstrs_singleton {i : Instr} {s t : State} (h : exec i s = .next t) : runInstrs [i] s = t := by
  rw [runInstrs_cons h]
  exact ite_self t

/-- Commands after which the run goes on take effect before whatever follows them (42_control R165). -/
theorem runInstrs_append {is : List Instr} {s : State} (h : (runInstrs is s).phase.live = true) (js : List Instr) :
    runInstrs (is ++ js) s = runInstrs js (runInstrs is s) := by
  induction is generalizing s with
  | nil => rfl
  | cons i is ih =>
    obtain ⟨t, ht⟩ := exec_next i s
    rw [runInstrs_cons ht] at h
    cases hl : t.phase.live with
    | true =>
      rw [hl, if_pos rfl] at h
      rw [List.cons_append, runInstrs_cons_live ht hl, runInstrs_cons_live ht hl, ih h]
    | false =>
      rw [hl, if_neg nofun] at h
      exact absurd (hl.symm.trans h) nofun

theorem encstr_cons (c : Byte) (cs : List Byte) : encstr (c :: cs) = encstr cs ++ [.encChar c] := by
  simp [encstr]

/-! ### The slots of a string, from the right -/

theorem digitsOf_cons (c : Byte) (cs : List Byte) :
    digitsOf (c :: cs) = digitsOf cs ++ if isDigitChar c then [c] else [] := by
  cases h : isDigitChar c <;> simp [digitsOf, h]

theorem digitsOf_cons_dot (cs : List Byte) : digitsOf (0x2E :: cs) = digitsOf cs :=
  (digitsOf_cons _ cs).trans (List.append_nil _)

/-- A '.' in front marks the slot of the next digit-producing character (41_encoder R147 (c)). -/
theorem hasPoint_cons (c : Byte) (cs : List Byte) (k : Nat) :
    hasPoint (c :: cs) k = ((c == 0x2E && (digitsOf cs).length == k) || hasPoint cs k) := by
  have hfirst : pointSlot (c :: cs) 0 = (digitsOf cs).length := by simp [pointSlot, digitsOf]
  have hrest (j : Nat) : pointSlot (c :: cs) (j + 1) = pointSlot cs j := by simp [pointSlot]
  simp [hasPoint, List.range_succ_eq_map, List.any_map, hfirst, hrest, Function.comp_def]

theorem slotOf_eq (cs : List Byte) (k : Nat) :
    slotOf cs k = ((digitsOf cs)[k]?.map codeOf).getD 0 ||| if hasPoint cs k then 0x80 else 0 := by
  unfold slotOf
  cases (digitsOf cs)[k]? <;> rfl

/-- A digit-producing character fills the first free slot, which may hold its point already (41_encoder R142). -/
theorem slotOf_cons_digit {c : Byte} (hc : isDigitChar c = true) (cs : List Byte) (k : Nat) :
    slotOf (c :: cs) k = if (digitsOf cs).length = k then slotOf cs k ||| codeOf c else slotOf cs k := by
  have hdot : (c == 0x2E) = false := beq_eq_false_iff_ne.mpr fun h => by
    rw [h] at hc
    exact absurd hc (by decide)
  simp only [slotOf_eq, digitsOf_cons, hasPoint_cons, hc, hdot, Bool.false_and, Bool.false_or, if_true]
  by_cases hk : (digitsOf cs).length = k
  · subst hk
    simp [BitVec.or_comm]
  · have hold : (digitsOf cs ++ [c])[k]? = (digitsOf cs)[k]? := by
      rw [List.getElem?_append]
      split
      · rfl
      · rw [List.getElem?_eq_none (by simp; omega), List.getElem?_eq_none (by omega)]
    rw [hold, if_neg hk]

/-- '.' marks the first free slot (41_encoder R143). -/
theorem slotOf_cons_dot (cs : List Byte) (k : Nat) :
    slotOf (0x2E :: cs) k = if (digitsOf cs).length = k then slotOf cs k ||| 0x80 else slotOf cs k := by
  simp only [slotOf_eq, digitsOf_cons_dot, hasPoint_cons]
  by_cases hk : (digitsOf cs).length = k
  · cases hp : hasPoint cs k <;> simp [hk]
  · simp [hk]

theorem valid_cases {c : Byte} (hc : c ∈ validChars) : isDigitChar c = true ∨ c = 0x2E := by
  have h : ∀ c ∈ validChars, isDigitChar c = true ∨ c = 0x2E := by decide
  exact h c hc

/-- What is to the right of a character in a string the encoder takes is one too, and the frame is not yet full there (41_encoder
R147). -/
theorem encodable_cons {c : Byte} {cs : List Byte} (h : encodable (c :: cs) = true) :
    c ∈ validChars ∧ encodable cs = true ∧ (digitsOf cs).length < 8 := by
  simp only [encodable, digitsOf_cons, hasPoint_cons, Bool.and_eq_true, List.all_cons, decide_eq_true_eq,
    Bool.not_eq_true', Bool.or_eq_false_iff, List.contains_iff_mem] at h ⊢
  obtain ⟨⟨⟨hc, hall⟩, hlen⟩, hfirst, hpoint⟩ := h
  rw [List.length_append] at hlen
  have hlt : (digitsOf cs).length < 8 := by
    obtain hd | rfl := valid_cases hc
    · rw [if_pos hd, List.length_singleton] at hlen
      omega
    · have hne : (digitsOf cs).length ≠ 8 := by simpa using hfirst
      omega
  exact ⟨hc, ⟨⟨hall, by omega⟩, hpoint⟩, hlt⟩

/-! ### The encoder in ENCODE -/

theorem phaseCheck_encode {s : State} (h : s.phase = .encode) (ops : List Micro) : phaseCheck .encoding s ops = ops := by
  simp [phaseCheck, h]

theorem phaseCheck_after_init {s : State} (h : s.phase = .configured ∨ s.phase = .sent) (ops : List Micro) :
    phaseCheck .configured s ops = ops := by
  rcases h with h | h <;> simp [phaseCheck, h]

section
variable {s : State} (hp : s.phase = .encode) {k : Nat} (hcur : s.cur.toNat = k) (hk : k < 8)
include hp hcur

/-- A digit-producing character is ORed into the slot at the cursor, which moves on (41_encoder R142). -/
theorem exec_encChar_digit {c : Byte} (hc : isDigitChar c = true) :
    exec (.encChar c) s = .next
      { s with frame := s.frame.set k (s.frame[k] ||| codeOf c), cur := s.cur + 1, busy := false, seq := [] } := by
  subst hcur
  have hclass : romClass (crom c) = 1#2 := beq_iff_eq.mp hc
  rw [exec, execEncChar, encCharOps, if_pos hclass, digitOps, phaseCheck_encode hp, complete, runOps, Micro.run,
    State.encodeDigit, dif_pos hk]
  rfl

/-- '.' is ORed into the slot at the cursor, which stays (41_encoder R143). -/
theorem exec_encChar_dot :
    exec (.encChar 0x2E) s = .next
      { s with frame := s.frame.set k (s.frame[k] ||| 0x80#8), busy := false, seq := [] } := by
  subst hcur
  have hops : encCharOps 0x2E s = dpOps s := rfl
  rw [exec, execEncChar, hops, dpOps, phaseCheck_encode hp, complete, runOps, Micro.run, State.encodeDp, dif_pos hk]
  rfl

end

/-- The idle block with the slots of a string in F and CUR behind its digit-producing characters (41_encoder R147). -/
def State.withString (cs : List Byte) (s : State) : State :=
  { s with
    frame := Vector.ofFn fun k : Fin 8 => slotOf cs k
    cur := BitVec.ofNat 4 (digitsOf cs).length
    busy := false
    seq := [] }

theorem exec_encClear {s : State} (hp : s.phase = .encode) : exec .encClear s = .next (s.withString []) := by
  rw [exec, execEncClear, encClearOps, phaseCheck_encode hp]
  rfl

/-- An OR into the first free slot of a string's frame leaves the frame of the longer string. -/
theorem set_slots {cs cs' : List Byte} {x : Byte} {k : Nat} (hk : k < 8)
    (h : ∀ j, slotOf cs' j = if k = j then slotOf cs j ||| x else slotOf cs j) :
    (Vector.ofFn fun j : Fin 8 => slotOf cs j).set k ((Vector.ofFn fun j : Fin 8 => slotOf cs j)[k] ||| x) =
      Vector.ofFn fun j : Fin 8 => slotOf cs' j := by
  refine Vector.ext fun j hj => ?_
  rw [Vector.getElem_set, Vector.getElem_ofFn, Vector.getElem_ofFn, Vector.getElem_ofFn, h]
  split
  · next he => subst he; rfl
  · rfl

/-- One more character in front of a string the encoder takes (41_encoder R141, R147). -/
theorem exec_encChar_withString {s : State} (hp : s.phase = .encode) {c : Byte} {cs : List Byte}
    (h : encodable (c :: cs) = true) : exec (.encChar c) (s.withString cs) = .next (s.withString (c :: cs)) := by
  obtain ⟨hc, -, hlt⟩ := encodable_cons h
  have hcur : (s.withString cs).cur.toNat = (digitsOf cs).length := by
    simp only [State.withString, BitVec.toNat_ofNat]
    omega
  obtain hd | rfl := valid_cases hc
  · have hnext : (s.withString cs).cur + 1 = (s.withString (c :: cs)).cur := by
      simp only [State.withString, digitsOf_cons, hd, if_true, List.length_append, List.length_singleton]
      exact (BitVec.ofNat_add ..).symm
    rw [exec_encChar_digit (s := s.withString cs) hp hcur hlt hd, hnext]
    refine congrArg (fun f => Host.Outcome.next { s.withString (c :: cs) with frame := f }) ?_
    exact set_slots hlt (slotOf_cons_digit hd cs)
  · have hsame : (s.withString cs).cur = (s.withString (0x2E :: cs)).cur := by
      simp only [State.withString, digitsOf_cons_dot]
    rw [exec_encChar_dot (s := s.withString cs) hp hcur hlt, hsame]
    refine congrArg (fun f => Host.Outcome.next { s.withString (0x2E :: cs) with frame := f }) ?_
    exact set_slots hlt (slotOf_cons_dot cs)

/-- A string the encoder takes, from an empty frame or not (30_encoding R95, 41_encoder R147). -/
theorem runInstrs_encstr {cs : List Byte} {s : State} (hp : s.phase = .encode) (hcs : encodable cs = true) :
    runInstrs (encstr cs) s = s.withString cs := by
  have hlive (cs : List Byte) : (s.withString cs).phase.live = true := by simp [State.withString, hp, Phase.live]
  induction cs with
  | nil => exact runInstrs_singleton (exec_encClear hp)
  | cons c cs ih =>
    have ih := ih (encodable_cons hcs).2.1
    rw [encstr_cons, runInstrs_append (ih ▸ hlive cs), ih, runInstrs_singleton (exec_encChar_withString hp hcs)]

/-! ### INIT, FRAME_OUT and HALT -/

/-- The levels of INIT step 2 (40_protocol R114). -/
def initLevels : List (Line × Bool) := [(.load, true), (.clk, false), (.data, false)]

/-- The events of INIT before its transactions (40_protocol R114). -/
def initEvents : List Event :=
  [.plat true, .cfg .data, .cfg .clk, .cfg .load] ++ eventsOf initLevels ++ [.rd true]

/-- Transactions in order (40_protocol R117): LV ends at the last word's levels. -/
theorem writes_txnsWrites (ts : List (Byte × Byte)) (a d : Byte) (s : State) :
    s.writes (txnsWrites (ts ++ [(a, d)])) =
      { s with
        lv := ⟨d.getLsbD 0, true, true⟩
        trace := s.trace ++ (ts ++ [(a, d)]).flatMap txnEvents
        rx := s.rx.seeAll (txnsWrites (ts ++ [(a, d)])) } := by
  rw [State.writes, setAll_txnsWrites, eventsOf_txnsWrites]

/-- The state after an INIT without a fault (40_protocol R114, R115). -/
def State.afterInit (n m k : Byte) (s : State) : State :=
  { s with
    phase := .configured
    oe := ⟨true, true, true⟩
    lv := ⟨true, true, true⟩
    trace := s.trace ++ initEvents ++ (initTransactions n m k).flatMap txnEvents
    rx := (s.rx.seeAll initLevels).seeAll (txnsWrites (initTransactions n m k))
    obsStart := some (s.rx.seeAll initLevels).log.length
    busy := false
    seq := [] }

/-- The state after FRAME_OUT (40_protocol R116). -/
def State.afterFrameOut (s : State) : State :=
  { s with
    phase := .sent
    lv := ⟨s.frame[7].getLsbD 0, true, true⟩
    trace := s.trace ++ (frameTransactions s.frame).flatMap txnEvents
    rx := s.rx.seeAll (txnsWrites (frameTransactions s.frame))
    busy := false
    seq := [] }

theorem frameTransactions_eq_concat (f : Vector Byte 8) :
    ∃ ts, frameTransactions f = ts ++ [(0x08#8, f[7])] :=
  ⟨[_, _, _, _, _, _, _], rfl⟩

theorem exec_frameOut {s : State} (hp : s.phase = .configured ∨ s.phase = .sent) :
    exec .frameOut s = .next s.afterFrameOut := by
  have hend (t : State) : (runOps [.enterSent] t).idle = { t with phase := .sent, busy := false, seq := [] } := rfl
  obtain ⟨ts, hts⟩ := frameTransactions_eq_concat s.frame
  rw [exec, execFrameOut, frameOutOps, phaseCheck_after_init hp, complete, runOps_writes, hend, State.afterFrameOut, hts,
    writes_txnsWrites]

theorem initTransactions_eq_concat (n m k : Byte) : ∃ ts, initTransactions n m k = ts ++ [(0x0C, 0x01)] :=
  ⟨[_, _, _, _, _], rfl⟩

/-- The micro-operations of INIT steps 1 to 3 (40_protocol R114). -/
def initSetup : List Micro :=
  [.platformSetup, .cfgOut .data, .cfgOut .clk, .cfgOut .load] ++ writeOps initLevels ++ [.markObservation, .readLoad]

theorem initBody_eq (n m k : Byte) :
    initBody n m k = initSetup ++ (writeOps (txnsWrites (initTransactions n m k)) ++ [.enterConfigured]) :=
  List.append_assoc _ _ _

/-- With the ports at 1, INIT steps 1 to 3 go on (40_protocol R114). -/
theorem runOps_initSetup {s : State} (hplat : s.platOk = true) (hload : s.loadI = true) (ms : List Micro) :
    runOps (initSetup ++ ms) s = runOps ms
      { s with
        oe := ⟨true, true, true⟩
        lv := ⟨false, false, true⟩
        trace := s.trace ++ initEvents
        rx := s.rx.seeAll initLevels
        obsStart := some (s.rx.seeAll initLevels).log.length } := by
  simp [initSetup, initLevels, initEvents, eventsOf, writeOps, runOps, Micro.run, State.platformSetup, State.readLoad, hplat,
    hload, State.lineCfgOut, State.lineWrite, Lines.set]

theorem exec_init {s : State} {n m k : Byte} (hp : s.phase = .encode) (hn : n ≤ 7) (hk : k ≤ 15) (hplat : s.platOk = true)
    (hload : s.loadI = true) : exec (.init n m k) s = .next (s.afterInit n m k) := by
  have hn : ¬ 7#8 < n := BitVec.not_lt.mpr hn
  have hk : ¬ 15#8 < k := BitVec.not_lt.mpr hk
  have hend (t : State) : (runOps [.enterConfigured] t).idle = { t with phase := .configured, busy := false, seq := [] } := rfl
  have hdata : (0x01 : Byte).getLsbD 0 = true := rfl
  obtain ⟨ts, hts⟩ := initTransactions_eq_concat n m k
  rw [exec, execInit, initOps, phaseCheck_encode hp, if_neg hn, if_neg hk, complete, initBody_eq, runOps_initSetup hplat hload,
    runOps_writes, hend, State.afterInit, hts, writes_txnsWrites, hdata]

/-- HALT in a live phase (42_control R160). -/
theorem exec_halt {s : State} (hl : s.phase.live = true) :
    exec .halt s = .next { s with exitCode := 0, phase := .halted, busy := false, seq := [] } := by
  have hops : haltOps s = [.halt] := by
    cases h : s.phase <;> simp [h, haltOps, phaseCheck, Phase.live] at hl ⊢
  rw [exec, execHalt, hops]
  rfl

/-! ### RUN -/

/-- The state that RUN of a string ends in, where nothing faults (30_encoding R95). -/
def State.afterRun (cs : List Byte) (n m k : Byte) (s : State) : State :=
  { ((s.withString cs).afterInit n m k).afterFrameOut with exitCode := 0, phase := .halted }

theorem afterRun_rx (cs : List Byte) (n m k : Byte) (s : State) :
    (s.afterRun cs n m k).rx =
      ((s.rx.seeAll initLevels).seeAll (txnsWrites (initTransactions n m k))).seeAll
        (txnsWrites (frameTransactions (s.withString cs).frame)) := by
  simp only [State.afterRun, State.afterFrameOut, State.afterInit, State.withString]

theorem runInstrs_runPseudo {cs : List Byte} {s : State} {n m k : Byte} (hp : s.phase = .encode) (hcs : encodable cs = true)
    (hn : n ≤ 7) (hk : k ≤ 15) (hplat : s.platOk = true) (hload : s.loadI = true) :
    runInstrs (runPseudo cs n m k) s = s.afterRun cs n m k := by
  have hstring := runInstrs_encstr hp hcs
  have hlive : (runInstrs (encstr cs) s).phase.live = true := by
    simp [hstring, State.withString, hp, Phase.live]
  have hinit : exec (.init n m k) (s.withString cs) = .next ((s.withString cs).afterInit n m k) :=
    exec_init (s := s.withString cs) hp hn hk hplat hload
  rw [runPseudo, runInstrs_append hlive, hstring, runInstrs_cons_live hinit rfl,
    runInstrs_cons_live (exec_frameOut (.inl rfl)) rfl, runInstrs_singleton (exec_halt rfl)]
  rfl

theorem eventCounts_append (es fs : List Event) :
    eventCounts (es ++ fs) = eventCounts es + eventCounts fs := by
  simp [eventCounts]

/-- A transaction makes 51 line writes and nothing else (40_protocol R119). -/
theorem eventCounts_txns (ts : List (Byte × Byte)) : eventCounts (ts.flatMap txnEvents) = (0, 0, 51 * ts.length, 0) := by
  induction ts with
  | nil => rfl
  | cons t ts ih =>
    have ht : eventCounts (txnEvents t) = (0, 0, 51, 0) := rfl
    rw [List.flatMap_cons, eventCounts_append, ih, ht]
    simp [Nat.mul_succ, Nat.add_comm (51 * _)]

/-- The words of transactions at a receiver that last saw LOAD high (40_protocol R118). -/
theorem seeAll_txnsWrites_log {r : Receiver} (hl : r.load = true) (ts : List (Byte × Byte)) :
    (r.seeAll (txnsWrites ts)).log = r.log ++ ts.map (fun t => wireWord t.1 t.2) ∧ (r.seeAll (txnsWrites ts)).load = true := by
  obtain rfl | ⟨us, u, rfl⟩ := List.eq_nil_or_concat ts
  · simp [txnsWrites, hl]
  · rw [List.concat_eq_append, seeAll_txnsWrites r us u.1 u.2 hl]
    exact ⟨rfl, rfl⟩

theorem seeAll_initLevels_load (r : Receiver) : (r.seeAll initLevels).load = true := rfl

/-- Slot s goes to address s + 1 (40_protocol R116, 20_memory R53). -/
theorem frameTransactions_eq_map (f : Vector Byte 8) :
    frameTransactions f = (List.finRange 8).map fun i => (BitVec.ofNat 8 (i.val + 1), f[i]) := rfl

/-- Settles O59: the string fills the frame, and INIT and FRAME_OUT send six and eight words to a receiver that last saw
LOAD high. -/
theorem runLatchesTheFourteenWords : Obligations.RunLatchesTheFourteenWords := by
  intro cs s n m k hp hcs hn hk hplat hload t
  have ht : t = s.afterRun cs n m k := runInstrs_runPseudo hp hcs hn hk hplat hload
  clear_value t
  subst ht
  refine ⟨rfl, rfl, ?_, ?_⟩
  · have htrace : (s.afterRun cs n m k).trace = s.trace ++ (initEvents ++ ((initTransactions n m k).flatMap txnEvents ++
        (frameTransactions (s.withString cs).frame).flatMap txnEvents)) := by
      simp [State.afterRun, State.afterFrameOut, State.afterInit, State.withString]
    have hinit : eventCounts initEvents = (1, 3, 3, 1) := rfl
    rw [eventsSince, htrace, List.drop_left, eventCounts_append, eventCounts_append, eventCounts_txns, eventCounts_txns, hinit]
    simp [initTransactions, frameTransactions]
  · obtain ⟨hlog, hload⟩ := seeAll_txnsWrites_log (seeAll_initLevels_load s.rx) (initTransactions n m k)
    obtain ⟨hlog', -⟩ := seeAll_txnsWrites_log hload (frameTransactions (s.withString cs).frame)
    have hwords : (s.afterRun cs n m k).rx.log = (s.rx.seeAll initLevels).log ++
        (initTransactions n m k ++ frameTransactions (s.withString cs).frame).map fun t => wireWord t.1 t.2 := by
      rw [afterRun_rx, hlog', hlog, List.map_append, List.append_assoc]
    have hobs : (s.afterRun cs n m k).observedWords =
        (s.afterRun cs n m k).rx.log.drop (s.rx.seeAll initLevels).log.length := rfl
    rw [hobs, hwords, List.drop_left, List.map_append, frameTransactions_eq_map, List.map_map]
    refine congrArg₂ (· ++ ·) rfl (List.map_congr_left fun i _ => ?_)
    exact congrArg (wireWord _) (Vector.getElem_ofFn i.isLt)

end Sys2Proof.Machine
end

section
/-! SUPPORT. The proof about the lines (40_protocol R117): what micro-operations that go on leave on the lines, at the receiver
and of the observation, the shape of a command, and the invariant that every step keeps. -/

namespace Sys2Proof.Machine

/-! ### What a level on a line leaves at the receiver -/

theorem level_see_same (r : Receiver) (l : Line) (b : Bool) : (r.see l b).level l = b := by
  cases l <;> rfl

theorem level_see_other (r : Receiver) {l k : Line} (b : Bool) (h : k ≠ l) : (r.see l b).level k = r.level k := by
  cases l with
  | data => cases k with
    | data => exact absurd rfl h
    | clk | load => rfl
  | clk => cases k with
    | clk => exact absurd rfl h
    | data | load => rfl
  | load => cases k with
    | load => exact absurd rfl h
    | data | clk =>
      simp only [Receiver.see, Receiver.level]
      split <;> rfl

/-- What the receiver sees removes nothing from RX_LOG (20_memory R62). -/
theorem log_length_le_see (r : Receiver) (l : Line) (b : Bool) : r.log.length ≤ (r.see l b).log.length := by
  cases l with
  | load =>
    simp only [Receiver.see]
    split <;> simp [Receiver.latch]
  | _ => exact Nat.le_refl _

/-- The observation goes on while the receiver sees levels and nothing else changes there (20_memory R62). -/
theorem observationInv_see {s t : State} (hobs : t.obsStart = s.obsStart) {l : Line} {b : Bool} (hrx : t.rx = s.rx.see l b)
    (h : s.ObservationInv) : t.ObservationInv := by
  obtain ⟨k, hk, hle⟩ := h
  exact ⟨k, hobs.trans hk, hle.trans (hrx ▸ log_length_le_see s.rx l b)⟩

/-! ### What micro-operations that go on leave -/

/-- The lines, the receiver and the start of the observation. -/
def State.lineView (s : State) : Lines × Lines × Receiver × Option Nat := (s.oe, s.lv, s.rx, s.obsStart)

/-- What a micro-operation that goes on does to the lines: a write, an output configured, the start of the observation, or
nothing (00_scope R11). -/
inductive LineStep (s t : State) : Micro → Prop
  | write (l : Line) (b : Bool) (h : t = s.lineWrite l b) : LineStep s t (.write l b)
  | cfgOut (l : Line) (h : t = s.lineCfgOut l) : LineStep s t (.cfgOut l)
  | mark (h : t = { s with obsStart := some s.rx.log.length }) : LineStep s t .markObservation
  | other {m : Micro} (hwrite : ∀ l b, m ≠ .write l b) (hcfg : ∀ l, m ≠ .cfgOut l) (hmark : m ≠ .markObservation)
      (h : t.lineView = s.lineView) (hphase : m ≠ .enterConfigured → m ≠ .enterSent → t.phase = s.phase) : LineStep s t m

/-- A micro-operation goes on, or it ends the command and with it the run (42_control R160, 60_exceptions R176). -/
theorem run_cases (m : Micro) (s : State) :
    (∃ t, m.run s = .go t ∧ LineStep s t m) ∨
      ∃ t, m.run s = .stop t ∧ (t.phase = .halted ∨ t.phase = .faulted) := by
  cases m with
  | write l b => exact .inl ⟨_, rfl, .write l b rfl⟩
  | cfgOut l => exact .inl ⟨_, rfl, .cfgOut l rfl⟩
  | markObservation => exact .inl ⟨_, rfl, .mark rfl⟩
  | clearFrame => exact .inl ⟨_, rfl, .other nofun nofun nofun rfl fun _ _ => rfl⟩
  | enterConfigured => exact .inl ⟨_, rfl, .other nofun nofun nofun rfl fun hne _ => absurd rfl hne⟩
  | enterSent => exact .inl ⟨_, rfl, .other nofun nofun nofun rfl fun _ hne => absurd rfl hne⟩
  | halt => exact .inr ⟨_, rfl, .inl rfl⟩
  | raise c x => exact .inr ⟨_, rfl, .inr rfl⟩
  | encodeDigit code =>
    simp only [Micro.run, State.encodeDigit]
    split
    · exact .inl ⟨_, rfl, .other nofun nofun nofun rfl fun _ _ => rfl⟩
    · exact .inr ⟨_, rfl, .inr rfl⟩
  | encodeDp =>
    simp only [Micro.run, State.encodeDp]
    split
    · exact .inl ⟨_, rfl, .other nofun nofun nofun rfl fun _ _ => rfl⟩
    · exact .inr ⟨_, rfl, .inr rfl⟩
  | platformSetup =>
    simp only [Micro.run, State.platformSetup]
    split
    · exact .inl ⟨_, rfl, .other nofun nofun nofun rfl fun _ _ => rfl⟩
    · exact .inr ⟨_, rfl, .inr rfl⟩
  | readLoad =>
    simp only [Micro.run, State.readLoad]
    split
    · exact .inl ⟨_, rfl, .other nofun nofun nofun rfl fun _ _ => rfl⟩
    · exact .inr ⟨_, rfl, .inr rfl⟩

theorem lineStep_of_go {m : Micro} {s t : State} (h : m.run s = .go t) : LineStep s t m := by
  obtain ⟨u, hu, hstep⟩ | ⟨u, hu, -⟩ := run_cases m s <;> cases h.symm.trans hu
  exact hstep

/-- A run of micro-operations that go on is a first one that does and a run of the rest. -/
theorem goAll_cons {m : Micro} {ms : List Micro} {s t : State} (h : goAll (m :: ms) s = some t) :
    ∃ u, m.run s = .go u ∧ goAll ms u = some t := by
  cases hm : m.run s with
  | go u => exact ⟨u, rfl, by simpa only [goAll, hm] using h⟩
  | stop u => simp [goAll, hm] at h

theorem lastWrite_append (l : Line) (ms ns : List Micro) : lastWrite l (ms ++ ns) = (lastWrite l ns).or (lastWrite l ms) := by
  induction ms with
  | nil => simp [lastWrite]
  | cons m ms ih => cases m <;> simp [lastWrite, ih, Option.or_assoc, Option.orElse_eq_or]

theorem lastWrite_cons_write (l k : Line) (b : Bool) (ms : List Micro) :
    lastWrite l (.write k b :: ms) = (lastWrite l ms).or (if k = l then some b else none) := by
  simp [lastWrite, Option.orElse_eq_or]

theorem lastWrite_cons_other (l : Line) {m : Micro} (h : ∀ l b, m ≠ .write l b) (ms : List Micro) :
    lastWrite l (m :: ms) = lastWrite l ms := by
  cases m with
  | write k b => exact absurd rfl (h k b)
  | _ => rfl

/-- A line holds, at the block and at the receiver, the last level written to it, or the one it held (10_state R31). -/
theorem goAll_levels {ops : List Micro} {s t : State} (h : goAll ops s = some t) (l : Line) :
    t.lv.get l = (lastWrite l ops).getD (s.lv.get l) ∧ t.rx.level l = (lastWrite l ops).getD (s.rx.level l) := by
  induction ops generalizing s with
  | nil => cases h; exact ⟨rfl, rfl⟩
  | cons m ms ih =>
    obtain ⟨u, hm, hms⟩ := goAll_cons h
    obtain ⟨hlv, hrx⟩ := ih hms
    rw [hlv, hrx]
    cases lineStep_of_go hm with
    | write k b hu =>
      subst hu
      rw [lastWrite_cons_write, Option.getD_or, Option.getD_or, lineWrite_lv, lineWrite_rx]
      by_cases hk : k = l
      · subst hk
        simp [level_see_same]
      · simp [hk, Lines.get_set_other _ _ _ _ (Ne.symm hk), level_see_other _ _ (Ne.symm hk)]
    | cfgOut k hu => subst hu; exact ⟨rfl, rfl⟩
    | mark hu => subst hu; exact ⟨rfl, rfl⟩
    | other hwrite _ _ hu _ =>
      simp only [State.lineView, Prod.mk.injEq] at hu
      obtain ⟨-, hlv, hrx, -⟩ := hu
      rw [lastWrite_cons_other l hwrite, hlv, hrx]
      exact ⟨rfl, rfl⟩

/-- The outputs are those from before and the lines configured (10_state R30). -/
theorem goAll_outputs {ops : List Micro} {s t : State} (h : goAll ops s = some t) {l : Line}
    (hl : s.oe.get l = true ∨ .cfgOut l ∈ ops) : t.oe.get l = true := by
  induction ops generalizing s with
  | nil => cases h; simpa using hl
  | cons m ms ih =>
    obtain ⟨u, hm, hms⟩ := goAll_cons h
    refine ih hms ?_
    cases lineStep_of_go hm with
    | write k b hu => subst hu; simpa using hl
    | cfgOut k hu =>
      subst hu
      by_cases hk : l = k
      · subst hk
        exact .inl (Lines.get_set_same _ _ _)
      · simpa [hk, Lines.get_set_other _ _ _ _ hk] using hl
    | mark hu => subst hu; simpa using hl
    | other _ hcfg _ hu _ =>
      simp only [State.lineView, Prod.mk.injEq] at hu
      rw [hu.1]
      exact hl.imp_right fun hmem => (List.mem_cons.mp hmem).resolve_left fun he => hcfg l he.symm

/-- The observation stands once it has started (20_memory R62). -/
theorem goAll_observation {ops : List Micro} {s t : State} (h : goAll ops s = some t)
    (hobs : s.ObservationInv ∨ .markObservation ∈ ops) : t.ObservationInv := by
  induction ops generalizing s with
  | nil => cases h; simpa using hobs
  | cons m ms ih =>
    obtain ⟨u, hm, hms⟩ := goAll_cons h
    refine ih hms ?_
    cases lineStep_of_go hm with
    | write k b hu =>
      have hsee : s.ObservationInv → u.ObservationInv := hu ▸ observationInv_see rfl rfl
      simpa using hobs.imp_left hsee
    | cfgOut k hu =>
      have hsame : s.ObservationInv → u.ObservationInv := hu ▸ id
      simpa using hobs.imp_left hsame
    | mark hu => subst hu; exact .inl ⟨_, rfl, Nat.le_refl _⟩
    | other _ _ hmark hu _ =>
      simp only [State.lineView, Prod.mk.injEq] at hu
      obtain ⟨-, -, hrx, hstart⟩ := hu
      rw [State.ObservationInv, hrx, hstart]
      exact hobs.imp_right fun hmem => (List.mem_cons.mp hmem).resolve_left hmark.symm

/-- Only the two micro-operations that end INIT and FRAME_OUT change PHASE and go on (40_protocol R114, R116). -/
theorem goAll_phase {ops : List Micro} {s t : State} (h : goAll ops s = some t) (hc : .enterConfigured ∉ ops)
    (hs : .enterSent ∉ ops) : t.phase = s.phase := by
  induction ops generalizing s with
  | nil => cases h; rfl
  | cons m ms ih =>
    obtain ⟨u, hm, hms⟩ := goAll_cons h
    obtain ⟨hcm, hc⟩ := List.ne_and_not_mem_of_not_mem_cons hc
    obtain ⟨hsm, hs⟩ := List.ne_and_not_mem_of_not_mem_cons hs
    rw [ih hms hc hs]
    cases lineStep_of_go hm with
    | write k b hu => subst hu; rfl
    | cfgOut k hu => subst hu; rfl
    | mark hu => subst hu; rfl
    | other _ _ _ _ hphase => exact hphase hcm.symm hsm.symm

/-! ### The shape of a command -/

/-- What the phase check admits, and in which phase (42_control R161). -/
theorem phaseCheck_admits (need : Need) (s : State) (ops : List Micro) :
    phaseCheck need s ops = [] ∨ phaseCheck need s ops = [.raise .sequence 0] ∨
    (phaseCheck need s ops = ops ∧ (need = .encoding → s.phase = .encode) ∧
      (need = .configured → s.phase = .configured ∨ s.phase = .sent)) := by
  cases need <;> cases h : s.phase <;> simp [phaseCheck, h]

/-- A micro-operation that writes no line and starts no phase after INIT. -/
def Micro.Quiet (m : Micro) : Prop := (∀ l b, m ≠ .write l b) ∧ m ≠ .enterConfigured ∧ m ≠ .enterSent

/-- What a command accepted in phase `p` can run: at most one micro-operation, which moves no line, the whole of INIT, or line
writes that leave CLK and LOAD high (40_protocol R114, R117). -/
inductive CommandShape (p : Phase) : List Micro → Prop
  | empty : CommandShape p []
  | single (m : Micro) (h : m.Quiet) : CommandShape p [m]
  | init (n m k : Byte) (hp : p = .encode) : CommandShape p (initBody n m k)
  | driver (ws : List (Line × Bool)) (tail : List Micro) (hp : p = .configured ∨ p = .sent)
      (htail : tail = [] ∨ tail = [.enterSent])
      (hhigh : ∀ r : Lines, r.load = true → (r.setAll ws).clk = true ∧ (r.setAll ws).load = true) :
      CommandShape p (writeOps ws ++ tail)

theorem quiet_raise (c : FaultCode) (x : Byte) : (Micro.raise c x).Quiet := ⟨nofun, nofun, nofun⟩

/-- The phase check leaves the shape of what it admits. -/
theorem shape_phaseCheck {need : Need} {s : State} {ops : List Micro}
    (h : (need = .encoding → s.phase = .encode) → (need = .configured → s.phase = .configured ∨ s.phase = .sent) →
      CommandShape s.phase ops) : CommandShape s.phase (phaseCheck need s ops) := by
  obtain he | he | ⟨he, henc, hconf⟩ := phaseCheck_admits need s ops <;> rw [he]
  · exact .empty
  · exact .single _ (quiet_raise _ _)
  · exact h henc hconf

theorem shape_initOps (n m k : Byte) (s : State) : CommandShape s.phase (initOps n m k s) := by
  refine shape_phaseCheck fun hp _ => ?_
  split
  · exact .single _ (quiet_raise _ _)
  · split
    · exact .single _ (quiet_raise _ _)
    · exact .init n m k (hp rfl)

/-- ENC_CHAR is one step of the encoder's scan (41_encoder R141). -/
theorem encCharOps_single (c : Byte) (s : State) : ∃ m : Micro, m.OfEncoder ∧ encCharOps c s = phaseCheck .encoding s [m] := by
  unfold encCharOps
  split
  · exact ⟨_, .encodeDigit _, rfl⟩
  · split
    · exact ⟨_, .encodeDp, rfl⟩
    · exact ⟨_, .badChar c, rfl⟩

theorem Micro.OfEncoder.quiet {m : Micro} (h : m.OfEncoder) : m.Quiet := by
  cases h <;> exact ⟨nofun, nofun, nofun⟩

theorem shape_encCharOps (c : Byte) (s : State) : CommandShape s.phase (encCharOps c s) := by
  obtain ⟨m, hm, ho⟩ := encCharOps_single c s
  rw [ho]
  exact shape_phaseCheck fun _ _ => .single m hm.quiet

theorem shape_frameOutOps (s : State) : CommandShape s.phase (frameOutOps s) := by
  obtain ⟨ts, hts⟩ := frameTransactions_eq_concat s.frame
  refine shape_phaseCheck fun _ hp => .driver _ _ (hp rfl) (.inr rfl) fun r _ => ?_
  rw [hts, setAll_txnsWrites]
  exact ⟨rfl, rfl⟩

theorem commandOps_shape (w : Word) (s : State) : CommandShape s.phase (commandOps w s) := by
  unfold commandOps
  cases hd : decode (.cmd32 w) with
  | error e => exact .single _ (quiet_raise _ _)
  | ok i =>
    have henc := decode_cmd32_eq_ok.mp hd
    clear hd
    cases i <;> cases henc
    case ok.encClear.refl => exact shape_phaseCheck fun _ _ => .single _ Micro.OfEncoder.clearFrame.quiet
    case ok.encChar.refl c => exact shape_encCharOps c s
    case ok.init.refl n m k => exact shape_initOps n m k s
    case ok.shift16.refl v =>
      refine shape_phaseCheck fun _ hp => ?_
      rw [← List.append_nil (writeOps _)]
      refine .driver _ [] (hp rfl) (.inl rfl) fun r hr => ?_
      rw [setAll_shiftWrites]
      exact ⟨rfl, hr⟩
    case ok.txn.refl a d =>
      refine shape_phaseCheck fun _ hp => ?_
      rw [← List.append_nil (writeOps _)]
      refine .driver _ [] (hp rfl) (.inl rfl) fun r _ => ?_
      rw [setAll_txnWrites]
      exact ⟨rfl, rfl⟩
    case ok.frameOut.refl => exact shape_frameOutOps s
    case ok.halt.refl => exact shape_phaseCheck fun _ _ => .single _ ⟨nofun, nofun, nofun⟩

theorem enters_not_mem_writeOps (ws : List (Line × Bool)) : .enterConfigured ∉ writeOps ws ∧ .enterSent ∉ writeOps ws := by
  constructor <;>
  · intro h
    obtain ⟨_, _, he⟩ := mem_writeOps h
    cases he

/-- PHASE changes at most in a command's last micro-operation, if the command goes on (40_protocol R114, R116). -/
theorem CommandShape.enters_last {p : Phase} {ops : List Micro} (h : CommandShape p ops) :
    .enterConfigured ∉ ops.dropLast ∧ .enterSent ∉ ops.dropLast := by
  cases h with
  | empty => exact ⟨nofun, nofun⟩
  | single m h => exact ⟨nofun, nofun⟩
  | init n m k hp =>
    have hsetup : .enterConfigured ∉ initSetup ∧ .enterSent ∉ initSetup := by decide
    have hwrites := enters_not_mem_writeOps (txnsWrites (initTransactions n m k))
    rw [initBody_eq, ← List.append_assoc, List.dropLast_concat, List.mem_append, List.mem_append]
    exact ⟨not_or_intro hsetup.1 hwrites.1, not_or_intro hsetup.2 hwrites.2⟩
  | driver ws tail hp htail hhigh =>
    have hwrites := enters_not_mem_writeOps ws
    obtain rfl | rfl := htail
    · rw [List.append_nil]
      exact ⟨mt List.mem_of_mem_dropLast hwrites.1, mt List.mem_of_mem_dropLast hwrites.2⟩
    · rw [List.dropLast_concat]
      exact hwrites

theorem mem_of_lastWrite {l : Line} {b : Bool} {ops : List Micro} (h : lastWrite l ops = some b) : .write l b ∈ ops := by
  induction ops with
  | nil => cases h
  | cons m ms ih =>
    by_cases hm : ∃ k c, m = .write k c
    · obtain ⟨k, c, rfl⟩ := hm
      rw [lastWrite_cons_write, Option.or_eq_some_iff] at h
      obtain h | ⟨-, h⟩ := h
      · exact List.mem_cons_of_mem _ (ih h)
      · split at h <;> cases h
        next hk => exact hk ▸ List.mem_cons_self
    · rw [lastWrite_cons_other l fun k c he => hm ⟨k, c, he⟩] at h
      exact List.mem_cons_of_mem _ (ih h)

/-- A command that writes lines before INIT has ended is INIT, which has configured them first (40_protocol R114). -/
theorem CommandShape.outputs_before_writes {p : Phase} {done rest : List Micro} (h : CommandShape p (done ++ rest))
    (hp : ¬ (p = .configured ∨ p = .sent)) {l : Line} {b : Bool} (hw : lastWrite l done = some b) (k : Line) :
    .cfgOut k ∈ done := by
  have hmem := mem_of_lastWrite hw
  have hpre : done <+: done ++ rest := List.prefix_append _ _
  generalize done ++ rest = ops at h hpre
  cases h with
  | empty => exact absurd (hpre.subset hmem) nofun
  | single m h => exact absurd (List.mem_singleton.mp (hpre.subset hmem)).symm (h.1 l b)
  | init n m c _ =>
    obtain hout | hout := List.prefix_or_prefix_of_prefix hpre
      (l₂ := [.platformSetup, .cfgOut .data, .cfgOut .clk, .cfgOut .load]) (by simp [initBody])
    · exact absurd (hout.subset hmem) (by simp)
    · exact hout.subset (by cases k <;> simp)
  | driver _ _ hp' => exact absurd hp' hp

/-- The level after some line writes is the last one written, or the one before them (10_state R31). -/
theorem get_setAll (r : Lines) (ws : List (Line × Bool)) (l : Line) :
    (r.setAll ws).get l = (lastWrite l (writeOps ws)).getD (r.get l) := by
  induction ws generalizing r with
  | nil => rfl
  | cons w ws ih =>
    have hcons : r.setAll (w :: ws) = (r.set w.1 w.2).setAll ws := rfl
    have hops : writeOps (w :: ws) = .write w.1 w.2 :: writeOps ws := rfl
    rw [hcons, ih, hops, lastWrite_cons_write, Option.getD_or]
    by_cases h : w.1 = l
    · rw [if_pos h, ← h, Lines.get_set_same]
      rfl
    · rw [if_neg h, Lines.get_set_other _ _ _ _ (Ne.symm h)]
      rfl

/-- A level that some line writes leave whatever was there is the last one they write. -/
theorem lastWrite_of_setAll {ws : List (Line × Bool)} {l : Line} {b : Bool} (h : ∀ r : Lines, (r.setAll ws).get l = b) :
    lastWrite l (writeOps ws) = some b := by
  cases hl : lastWrite l (writeOps ws) with
  | some c =>
    have hc := h ⟨true, true, true⟩
    rw [get_setAll, hl] at hc
    exact congrArg some hc
  | none =>
    have hc := h ⟨!b, !b, !b⟩
    rw [get_setAll, hl] at hc
    cases l <;> exact absurd hc (by simp [Lines.get])

/-- INIT leaves the three lines at the levels of its last word (40_protocol R117). -/
theorem lastWrite_initBody (n m k : Byte) (l : Line) : lastWrite l (initBody n m k) = some true := by
  obtain ⟨ts, hts⟩ := initTransactions_eq_concat n m k
  have htxns : lastWrite l (writeOps (txnsWrites (initTransactions n m k))) = some true := by
    refine lastWrite_of_setAll fun r => ?_
    rw [hts, setAll_txnsWrites]
    cases l <;> rfl
  rw [initBody_eq, lastWrite_append, lastWrite_append, htxns]
  rfl

/-- After INIT a command leaves CLK and LOAD high (40_protocol R117 (a), (b)). -/
theorem CommandShape.high_again {p : Phase} {ops : List Micro} (h : CommandShape p ops) (hp : p = .configured ∨ p = .sent) :
    (lastWrite .clk ops).getD true = true ∧ (lastWrite .load ops).getD true = true := by
  cases h with
  | empty => exact ⟨rfl, rfl⟩
  | single m h =>
    rw [lastWrite_cons_other _ h.1, lastWrite_cons_other _ h.1]
    exact ⟨rfl, rfl⟩
  | init _ _ _ henc =>
    rw [henc] at hp
    exact absurd hp (by decide)
  | driver ws tail _ htail hhigh =>
    have hend (l : Line) : lastWrite l (writeOps ws ++ tail) = lastWrite l (writeOps ws) := by
      obtain rfl | rfl := htail
      · rw [List.append_nil]
      · rw [lastWrite_append]
        rfl
    obtain ⟨hclk, hload⟩ := hhigh ⟨true, true, true⟩ rfl
    rw [hend, hend]
    exact ⟨(get_setAll _ ws .clk).symm.trans hclk, (get_setAll _ ws .load).symm.trans hload⟩

/-- Before INIT has ended, only INIT enters another phase and goes on (40_protocol R114). -/
theorem CommandShape.init_or_stays {p : Phase} {ops : List Micro} (h : CommandShape p ops)
    (hp : ¬ (p = .configured ∨ p = .sent)) :
    (∃ n m k, ops = initBody n m k) ∨ (.enterConfigured ∉ ops ∧ .enterSent ∉ ops) := by
  cases h with
  | empty => exact .inr ⟨nofun, nofun⟩
  | single m h => exact .inr ⟨mt List.mem_singleton.mp h.2.1.symm, mt List.mem_singleton.mp h.2.2.symm⟩
  | init n m k _ => exact .inl ⟨n, m, k, rfl⟩
  | driver _ _ hp' => exact absurd hp' hp

/-! ### The lines inside a command -/

/-- After INIT: the lines are outputs, the receiver saw their levels, and CLK and LOAD are high where the micro-operations done
have not written them (40_protocol R117). -/
structure State.Tracked (s : State) (done : List Micro) : Prop where
  outputs : s.oe = ⟨true, true, true⟩
  seen : ∀ l, s.rx.level l = s.lv.get l
  observed : s.ObservationInv
  clk : s.lv.clk = (lastWrite .clk done).getD true
  load : s.lv.load = (lastWrite .load done).getD true

/-- Some micro-operations of a command accepted in the present phase are done and the others are left: State.InsideInv, with
the micro-operations left named apart from the sequencer. -/
structure State.InProgress (s : State) (done ops : List Micro) : Prop where
  command : ∃ w s0, s0.phase = s.phase ∧ commandOps w s0 = done ++ ops
  left : s.Done done
  tracked : s.phase = .configured ∨ s.phase = .sent → s.Tracked done

theorem insideInv_iff (s : State) : s.InsideInv ↔ ∃ done, s.InProgress done s.seq := by
  constructor
  · rintro ⟨w, s0, done, hphase, hops, hdone, htracked⟩
    exact ⟨done, ⟨w, s0, hphase, hops⟩, hdone, fun h => have ⟨ho, hs, hb, hc, hl⟩ := htracked h; ⟨ho, hs, hb, hc, hl⟩⟩
  · rintro ⟨done, ⟨w, s0, hphase, hops⟩, hdone, htracked⟩
    exact ⟨w, s0, done, hphase, hops, hdone, fun h => have ⟨ho, hs, hb, hc, hl⟩ := htracked h; ⟨ho, hs, hb, hc, hl⟩⟩

theorem Lines.eq_high {r : Lines} (h : ∀ l, r.get l = true) : r = ⟨true, true, true⟩ :=
  congr (congr (congrArg Lines.mk (h .data)) (h .clk)) (h .load)

theorem State.InProgress.shape {s : State} {done ops : List Micro} (h : s.InProgress done ops) :
    CommandShape s.phase (done ++ ops) := by
  obtain ⟨w, s0, hphase, hops⟩ := h.command
  rw [← hphase, ← hops]
  exact commandOps_shape w s0

theorem State.Done.goAll {s t : State} {done ops : List Micro} (h : s.Done done) (hgo : goAll ops s = some t) :
    t.Done (done ++ ops) where
  outputs l hl := goAll_outputs hgo ((List.mem_append.mp hl).imp_left (h.outputs l))
  levels l b hb := by
    obtain ⟨hlv, hrx⟩ := goAll_levels hgo l
    rw [hlv, hrx]
    rw [lastWrite_append, Option.or_eq_some_iff] at hb
    obtain hb | ⟨hnone, hb⟩ := hb
    · rw [hb]
      exact ⟨rfl, rfl⟩
    · rw [hnone]
      exact h.levels l b hb
  observed hm := goAll_observation hgo ((List.mem_append.mp hm).imp_left h.observed)

theorem State.Tracked.goAll {s t : State} {done ops : List Micro} (h : s.Tracked done) (hgo : goAll ops s = some t) :
    t.Tracked (done ++ ops) := by
  have houtput (l : Line) : t.oe.get l = true := goAll_outputs hgo (.inl (by rw [h.outputs]; cases l <;> rfl))
  refine ⟨Lines.eq_high houtput, fun l => ?_, goAll_observation hgo (.inl h.observed), ?_, ?_⟩
  · obtain ⟨hlv, hrx⟩ := goAll_levels hgo l
    rw [hlv, hrx, h.seen]
  · rw [lastWrite_append, Option.getD_or, ← h.clk]
    exact (goAll_levels hgo .clk).1
  · rw [lastWrite_append, Option.getD_or, ← h.load]
    exact (goAll_levels hgo .load).1

/-- Between commands nothing of the next one is done. -/
theorem State.LinesInv.tracked {s : State} (h : s.LinesInv) (hp : s.phase = .configured ∨ s.phase = .sent) : s.Tracked [] := by
  obtain ⟨hoe, hload, hclk, hdata, hrclk, hrload, hobs⟩ := h hp
  refine ⟨hoe, fun l => ?_, hobs, hclk, hload⟩
  cases l
  · exact hdata
  · exact hrclk.trans hclk.symm
  · exact hrload.trans hload.symm

theorem State.LinesInv.inProgress {s : State} (h : s.LinesInv) (w : Word) : s.InProgress [] (commandOps w s) :=
  ⟨⟨w, s, rfl, rfl⟩, ⟨nofun, nofun, nofun⟩, h.tracked⟩

/-- Lines that are tracked, with CLK and LOAD high, are within the invariant between commands. -/
theorem State.Tracked.linesInv {s : State} {done : List Micro} (h : s.Tracked done)
    (hclk : (lastWrite .clk done).getD true = true) (hload : (lastWrite .load done).getD true = true) : s.LinesInv := by
  have hclk := h.clk.trans hclk
  have hload := h.load.trans hload
  exact fun _ => ⟨h.outputs, hload, hclk, h.seen .data, (h.seen .clk).trans hclk, (h.seen .load).trans hload, h.observed⟩

/-- INIT done is lines tracked (40_protocol R114). -/
theorem State.Done.tracked_of_init {s : State} {n m k : Byte} (h : s.Done (initBody n m k)) :
    s.Tracked (initBody n m k) := by
  have hlevel (l : Line) := h.levels l true (lastWrite_initBody n m k l)
  have houtput (l : Line) : s.oe.get l = true := h.outputs l (by cases l <;> simp [initBody])
  refine ⟨Lines.eq_high houtput, fun l => (hlevel l).2.trans (hlevel l).1.symm, h.observed (by simp [initBody]), ?_, ?_⟩
  · rw [lastWrite_initBody]
    exact (hlevel .clk).1
  · rw [lastWrite_initBody]
    exact (hlevel .load).1

/-- A command completes, or it ends the run. -/
theorem complete_cases (ops : List Micro) (s : State) :
    (∃ t, goAll ops s = some t ∧ complete ops s = t.idle) ∨
      (complete ops s).phase = .halted ∨ (complete ops s).phase = .faulted := by
  induction ops generalizing s with
  | nil => exact .inl ⟨s, rfl, rfl⟩
  | cons m ms ih =>
    obtain ⟨u, hm, -⟩ | ⟨u, hm, hover⟩ := run_cases m s
    · simpa only [goAll, complete, runOps, hm] using ih u
    · rw [complete_stop hm]
      exact .inr hover

/-- A command that completes leaves the lines' invariant (40_protocol R117). -/
theorem State.InProgress.linesInv {s t : State} {done ops : List Micro} (h : s.InProgress done ops)
    (hgo : goAll ops s = some t) : t.LinesInv := by
  by_cases hp : s.phase = .configured ∨ s.phase = .sent
  · obtain ⟨hclk, hload⟩ := h.shape.high_again hp
    exact ((h.tracked hp).goAll hgo).linesInv hclk hload
  · obtain ⟨n, m, k, hinit⟩ | ⟨hconf, hsent⟩ := h.shape.init_or_stays hp
    · have hdone := h.left.goAll hgo
      rw [hinit] at hdone
      exact hdone.tracked_of_init.linesInv (by rw [lastWrite_initBody]; rfl) (by rw [lastWrite_initBody]; rfl)
    · have hphase : t.phase = s.phase := goAll_phase hgo (mt (List.mem_append_right done) hconf)
        (mt (List.mem_append_right done) hsent)
      rw [← hphase] at hp
      exact fun hp' => absurd hp' hp

/-- A command run to its end leaves the lines' invariant, by completing or in a run that is over. -/
theorem State.InProgress.complete {s : State} {done ops : List Micro} (h : s.InProgress done ops) :
    (complete ops s).LinesInv := by
  obtain ⟨t, hgo, he⟩ | hover := complete_cases ops s
  · have ht := h.linesInv hgo
    rw [he]
    exact ht
  · exact fun hp => absurd hp (by obtain ho | ho := hover <;> rw [ho] <;> decide)

/-- A pause inside a command (10_state R24): what has run is done, and the rest is in the sequencer. -/
theorem State.InProgress.pause {s v : State} {done ops rest : List Micro} (h : s.InProgress done (ops ++ rest))
    (hgo : goAll ops s = some v) (hrest : rest ≠ []) : State.InsideInv { v with busy := true, seq := rest } := by
  have hlast := h.shape.enters_last
  rw [← List.append_assoc, List.dropLast_append_of_ne_nil hrest, List.mem_append, List.mem_append, List.mem_append,
    List.mem_append] at hlast
  simp only [not_or] at hlast
  obtain ⟨⟨⟨-, hconf⟩, -⟩, ⟨-, hsent⟩, -⟩ := hlast
  have hphase : v.phase = s.phase := goAll_phase hgo hconf hsent
  obtain ⟨w, s0, hs0, hops⟩ := h.command
  have ⟨houtputs, hlevels, hobserved⟩ := h.left.goAll hgo
  refine (insideInv_iff _).mpr ⟨done ++ ops, ⟨w, s0, hs0.trans hphase.symm, by rw [hops, List.append_assoc]⟩,
    ⟨houtputs, hlevels, hobserved⟩, fun hp => ?_⟩
  have ⟨hoe, hseen, hobs, hclk, hload⟩ := (h.tracked (hphase ▸ hp)).goAll hgo
  exact ⟨hoe, hseen, hobs, hclk, hload⟩

/-! ### Every step -/

theorem runLinesInv_of_idle {s : State} (hb : s.busy = false) (h : s.LinesInv) : s.RunLinesInv :=
  ⟨fun _ => h, fun hb' => absurd (hb.symm.trans hb') nofun⟩

theorem State.RunLinesInv.inProgress {s : State} (h : s.RunLinesInv) (hb : s.busy = true) :
    ∃ done, s.InProgress done s.seq := (insideInv_iff s).mp (h.inside hb)

/-- Some micro-operations of a command, and its end if it comes among them, keep the lines' invariant. -/
theorem State.InProgress.runCommand {s : State} {done ops : List Micro} (h : s.InProgress done ops) (k : Nat) :
    (s.runCommand k ops).RunLinesInv := by
  by_cases hpause : k < ops.length ∧ ∃ v, goAll (ops.take k) s = some v
  · obtain ⟨hk, v, hv⟩ := hpause
    rw [runCommand_pauses hk hv]
    rw [← List.take_append_drop k ops] at h
    exact ⟨nofun, fun _ => h.pause hv (by simpa using hk)⟩
  · have hend : ops.length ≤ k ∨ goAll (ops.take k) s = none := by
      rw [not_and_or, not_lt] at hpause
      exact hpause.imp_right fun hnone => Option.eq_none_iff_forall_ne_some.mpr fun v hv => hnone ⟨v, hv⟩
    rw [runCommand_ends hend, countEnded_complete]
    exact runLinesInv_of_idle rfl h.complete

theorem State.RunLinesInv.finish {s : State} (h : s.RunLinesInv) : s.finish.LinesInv := by
  cases hb : s.busy with
  | false =>
    rw [finish_of_not_busy hb]
    exact h.between hb
  | true =>
    obtain ⟨done, hp⟩ := h.inProgress hb
    rw [finish_of_busy hb]
    exact hp.complete

/-- What is not on the lines may change (10_state R36). -/
theorem State.RunLinesInv.ports {s : State} (h : s.RunLinesInv) (rest : List Input) (p l : Bool) :
    { s with inputs := rest, platOk := p, loadI := l : State }.RunLinesInv := by
  refine ⟨h.between, fun hb => ?_⟩
  obtain ⟨w, s0, done, hphase, hops, ⟨houtputs, hlevels, hobserved⟩, htracked⟩ := h.inside hb
  exact ⟨w, s0, done, hphase, hops, ⟨houtputs, hlevels, hobserved⟩, htracked⟩

theorem State.RunLinesInv.continueCommand {s : State} (h : s.RunLinesInv) (k : Nat) :
    (s.continueCommand k).RunLinesInv := by
  cases hb : s.busy with
  | false => rwa [continueCommand_of_not_busy hb]
  | true =>
    obtain ⟨done, hp⟩ := h.inProgress hb
    rw [continueCommand_of_busy hb]
    exact hp.runCommand k

theorem State.RunLinesInv.declineOffer {s : State} (h : s.RunLinesInv) (rest : List Input) :
    (s.declineOffer rest).RunLinesInv := by
  unfold State.declineOffer
  split
  · exact runLinesInv_of_idle (finish_busy s) h.finish
  · exact h.ports rest s.platOk s.loadI

/-- An accepted command starts on lines that are as INIT or the last command left them. -/
theorem State.RunLinesInv.accepted {s : State} (h : s.RunLinesInv) (ha : s.accepts = true) (rest : List Input) (w : Word)
    (k : Nat) : ((s.accept rest).runCommand k (commandOps w (s.accept rest))).RunLinesInv := by
  have hlines : (s.accept rest).LinesInv := h.between (accepts_eq_true.mp ha).1
  exact (hlines.inProgress w).runCommand k

theorem State.RunLinesInv.beginCommand {s : State} (h : s.RunLinesInv) (w : Word) (k : Nat) (rest : List Input) :
    (beginCommand w k rest s).RunLinesInv := by
  cases ha : s.accepts with
  | true =>
    rw [beginCommand_accepted rest ha]
    exact h.accepted ha rest w k
  | false =>
    rw [beginCommand_declined rest ha]
    exact h.declineOffer rest

/-- A command word, run to its end. -/
theorem State.RunLinesInv.offer_cmd32 {s t : State} (h : s.RunLinesInv) {w : Word} {rest : List Input}
    (ht : offer (.cmd32 w) rest s = .next t) : t.RunLinesInv := by
  cases ha : s.accepts with
  | true =>
    rw [Machine.offer_cmd32 rest ha, complete_countEnded_eq] at ht
    cases ht
    exact h.accepted ha rest w _
  | false =>
    rw [offer_declined rest ha] at ht
    cases ht
    exact h.declineOffer rest

/-- A character is offered as the word of its ENC_CHAR (30_encoding R84). -/
theorem offer_char8_eq (c : Byte) (rest : List Input) (s : State) :
    offer (.char8 c) rest s = offer (.cmd32 (0x200000#24 ++ c)) rest s := by
  cases ha : s.accepts with
  | true =>
    rw [offer_char8 rest ha, Machine.offer_cmd32 rest ha, commandOps, ← encode, decode_encode_encChar, opsOf_decodeChar]
    rfl
  | false => rw [offer_declined rest ha, offer_declined rest ha]

/-- A wire word latches itself (20_memory R64). -/
theorem exec_of_encode_wire16 {i : Instr} {w : Wire} (h : encode i = .wire16 w) (s : State) :
    exec i s = .next { s with rx := s.rx.latch w } := by
  cases i <;> cases h <;> rfl

/-- The block does not drive a pad on which a level is seen, and the receiver sees it (20_memory R63 to R65). -/
theorem padInput_sees {l : Line} {b : Bool} {rest : List Input} {s t : State} (h : padInput l b rest s = .next t) :
    s.oe.get l = false ∧ t = { s with inputs := rest, rx := s.rx.see l b } := by
  unfold padInput at h
  split at h
  · cases h
  · next hoe =>
    refine ⟨eq_false_of_ne_true hoe, ?_⟩
    split at h
    · next hedge =>
      obtain ⟨⟨rfl, rfl⟩, hload⟩ : (l = .load ∧ b = true) ∧ s.rx.load = false := by
        simpa [Receiver.latchesOn] using hedge
      rw [see_load_edge hload]
      split at h
      · next i hd =>
        rw [exec_of_encode_wire16 (encodeDecodeRoundTrip _ i hd).1] at h
        cases h
        rfl
      · cases h
        rfl
    · cases h
      rfl

/-- A level on a pad keeps the lines' invariant: INIT has configured the lines before it writes one (40_protocol R114). -/
theorem State.RunLinesInv.padInput {s t : State} (h : s.RunLinesInv) {l : Line} {b : Bool} {rest : List Input}
    (ht : padInput l b rest s = .next t) : t.RunLinesInv := by
  obtain ⟨hoe, rfl⟩ := padInput_sees ht
  have hdriven (houtputs : s.oe = ⟨true, true, true⟩) : False := by
    rw [houtputs] at hoe
    cases l <;> cases hoe
  refine ⟨fun hb hp => (hdriven (h.between hb hp).1).elim, fun hb => ?_⟩
  obtain ⟨done, hprog⟩ := h.inProgress hb
  have hp : ¬ (s.phase = .configured ∨ s.phase = .sent) := fun hp => hdriven (hprog.tracked hp).outputs
  have hsee : s.ObservationInv → State.ObservationInv { s with inputs := rest, rx := s.rx.see l b } :=
    observationInv_see rfl rfl
  refine (insideInv_iff _).mpr ⟨done, hprog.command, ⟨hprog.left.outputs, fun k c hw => ?_, ?_⟩, fun hp' => absurd hp' hp⟩
  · have hk : k ≠ l := fun he => by
      have hout := hprog.left.outputs k (hprog.shape.outputs_before_writes hp hw k)
      rw [he, hoe] at hout
      cases hout
    obtain ⟨hlv, hrx⟩ := hprog.left.levels k c hw
    exact ⟨hlv, (level_see_other s.rx b hk).trans hrx⟩
  · exact fun hm => hsee (hprog.left.observed hm)

theorem State.RunLinesInv.step {s t : State} (h : s.RunLinesInv) (ht : step s = .next t) : t.RunLinesInv := by
  cases hi : s.inputs with
  | nil =>
    simp only [Machine.step, hi] at ht
    cases ht
    exact runLinesInv_of_idle (finish_busy s) h.finish
  | cons x rest =>
    cases x <;> simp only [Machine.step, hi] at ht
    case cmd w => exact h.offer_cmd32 ht
    case char c =>
      rw [offer_char8_eq] at ht
      exact h.offer_cmd32 ht
    case begin w k =>
      cases ht
      exact h.beginCommand w k rest
    case run k =>
      cases ht
      exact (h.ports rest s.platOk s.loadI).continueCommand k
    case plat b =>
      cases ht
      exact h.ports rest b s.loadI
    case loadIn b =>
      cases ht
      exact h.ports rest s.platOk b
    case pad l b => exact h.padInput ht
    case reset d =>
      cases ht
      exact runLinesInv_of_idle rfl nofun

/-- Settles O53: the command in progress keeps its lines as its last writes left them, and every command's last writes leave them
high. -/
theorem everyStepKeepsTheLinesInvariant : Obligations.EveryStepKeepsTheLinesInvariant :=
  ⟨fun _ _ hidle h hstep => ((runLinesInv_of_idle hidle.1 h).step hstep).between,
    fun _ _ h hstep => h.step hstep, fun _ h => h.finish⟩

end Sys2Proof.Machine
end

section
/-! SUPPORT. The proofs about line writes (40_protocol R110, R112, R117): the edges and the samples of ShiftBody, of TxnBody and
of several transactions, and the levels at which they write DATA and LOAD. -/

namespace Sys2Proof.Machine

/-! ### Bits -/

/-- The order in which ShiftBody sends the bits of a word (40_protocol R110). -/
def bitOrder : List Nat := [15, 14, 13, 12, 11, 10, 9, 8, 7, 6, 5, 4, 3, 2, 1, 0]

theorem shiftEvents_eq_bits (v : Wire) : shiftEvents v = bitOrder.flatMap (bitEvents v) := rfl

theorem shiftWrites_eq_bits (v : Wire) :
    shiftWrites v = bitOrder.flatMap fun i => [(.clk, false), (.data, v.getLsbD i), (.clk, true)] := rfl

/-- The receiver samples each bit once, whatever CLK was (40_protocol R110, 20_memory R63). -/
theorem samples_bits (r : Receiver) (v : Wire) (is : List Nat) :
    samples r (is.flatMap fun i => [(.clk, false), (.data, v.getLsbD i), (.clk, true)]) = is.map v.getLsbD := by
  induction is generalizing r with
  | nil => rfl
  | cons i is ih => simp [samples, Receiver.see, ih]

/-- Each bit is one CLK rising edge, whatever CLK was, and leaves CLK high (40_protocol R110). -/
theorem risingEdges_clk_bits (lev : Bool) (v : Wire) (i : Nat) (is : List Nat) (es : List Event) :
    risingEdges .clk lev ((i :: is).flatMap (bitEvents v) ++ es) = (i :: is).length + risingEdges .clk true es := by
  induction is generalizing i lev with
  | nil => simp [bitEvents, risingEdges]
  | cons j is ih =>
    rw [List.flatMap_cons, List.append_assoc, List.length_cons, Nat.add_comm _ 1, Nat.add_assoc, ← ih true]
    simp [bitEvents, risingEdges]

/-- A bit writes DATA after it has set CLK low (40_protocol R110). -/
theorem dataWritten_bits {es : List Event} (h : ∀ r, dataWrittenOnlyAtClkLow r es = true) (v : Wire) (is : List Nat) (r : Lines) :
    dataWrittenOnlyAtClkLow r (is.flatMap (bitEvents v) ++ es) = true := by
  induction is generalizing r with
  | nil => exact h r
  | cons i is ih => simpa [bitEvents, dataWrittenOnlyAtClkLow, Lines.set] using ih _

/-- A bit leaves LOAD as it is and CLK high (40_protocol R110). -/
theorem loadMoves_bits {es : List Event}
    (h : ∀ r : Lines, r.clk = true → r.load = true → loadMovesOnlyAtClkHigh r es = true) (v : Wire) (i : Nat) (is : List Nat)
    {r : Lines} (hr : r.load = true) : loadMovesOnlyAtClkHigh r ((i :: is).flatMap (bitEvents v) ++ es) = true := by
  induction is generalizing i r with
  | nil => simpa [bitEvents, loadMovesOnlyAtClkHigh, Lines.set] using h { r with data := v.getLsbD i, clk := true } rfl hr
  | cons j is ih =>
    simpa [bitEvents, loadMovesOnlyAtClkHigh, Lines.set] using ih j (r := { r with data := v.getLsbD i, clk := true }) hr

/-! ### ShiftBody -/

theorem risingEdges_clk_shift (lev : Bool) (v : Wire) (es : List Event) :
    risingEdges .clk lev (shiftEvents v ++ es) = 16 + risingEdges .clk true es := by
  rw [shiftEvents_eq_bits]
  exact risingEdges_clk_bits lev v 15 bitOrder.tail es

theorem dataWritten_shift {es : List Event} (h : ∀ r, dataWrittenOnlyAtClkLow r es = true) (v : Wire) (r : Lines) :
    dataWrittenOnlyAtClkLow r (shiftEvents v ++ es) = true := by
  rw [shiftEvents_eq_bits]
  exact dataWritten_bits h v bitOrder r

theorem loadMoves_shift {es : List Event}
    (h : ∀ r : Lines, r.clk = true → r.load = true → loadMovesOnlyAtClkHigh r es = true) (v : Wire)
    {r : Lines} (hr : r.load = true) : loadMovesOnlyAtClkHigh r (shiftEvents v ++ es) = true := by
  rw [shiftEvents_eq_bits]
  exact loadMoves_bits h v 15 bitOrder.tail hr

theorem length_shiftEvents (v : Wire) : (shiftEvents v).length = 48 := by
  simp [shiftEvents, bitEvents]

theorem no_load_in_shift (v : Wire) : ∀ e ∈ shiftEvents v, e.isWriteTo .load = false := by
  intro e he
  obtain ⟨j, -, hj⟩ := List.mem_flatMap.mp he
  simp only [bitEvents, List.mem_cons, List.not_mem_nil, or_false] at hj
  obtain rfl | rfl | rfl := hj <;> rfl

/-- Events that write other lines are no edge of a line. -/
theorem edges_of_no_write {l : Line} {es : List Event} (h : ∀ e ∈ es, e.isWriteTo l = false) (lev : Bool) (fs : List Event) :
    risingEdges l lev (es ++ fs) = risingEdges l lev fs ∧ fallingEdges l lev (es ++ fs) = fallingEdges l lev fs := by
  induction es with
  | nil => exact ⟨rfl, rfl⟩
  | cons e es ih =>
    have he := h e List.mem_cons_self
    have ih := ih fun e' h' => h e' (List.mem_cons_of_mem e h')
    cases e with
    | wr k b =>
      have hk : k ≠ l := by simpa [Event.isWriteTo] using he
      simpa [risingEdges, fallingEdges, hk] using ih
    | plat | cfg | rd => exact ih

/-- Settles O31: each of the sixteen bits is three writes, one CLK rising edge and one sample. -/
theorem shiftBodyWrites : Obligations.ShiftBodyWrites := by
  intro v
  refine ⟨eventsOf_shiftWrites v, rfl, ?_, fun lev => ?_, fun r => ?_⟩
  · intro w hw
    have hno := no_load_in_shift v (.wr w.1 w.2) (eventsOf_shiftWrites v ▸ List.mem_map_of_mem hw)
    simpa [Event.isWriteTo] using hno
  · rw [← List.append_nil (shiftEvents v), risingEdges_clk_shift]
    rfl
  · rw [shiftWrites_eq_bits, samples_bits]
    rfl

/-! ### TxnBody -/

theorem txnEvents_append (t : Byte × Byte) (es : List Event) :
    txnEvents t ++ es = .wr .load true :: (shiftEvents (t.1 ++ t.2) ++ .wr .load false :: .wr .load true :: es) := by
  simp only [txnEvents, List.append_assoc, List.cons_append, List.nil_append]

theorem risingEdges_clk_txn (lev : Bool) (t : Byte × Byte) (es : List Event) :
    risingEdges .clk lev (txnEvents t ++ es) = 16 + risingEdges .clk true es := by
  rw [txnEvents_append]
  exact risingEdges_clk_shift lev _ _

/-- LOAD rises at the end, and at the start if it was low (40_protocol R112). -/
theorem risingEdges_load_txn (lev : Bool) (t : Byte × Byte) (es : List Event) :
    risingEdges .load lev (txnEvents t ++ es) = (if lev then 0 else 1) + (1 + risingEdges .load true es) := by
  have hshift := edges_of_no_write (no_load_in_shift (t.1 ++ t.2)) true (.wr .load false :: .wr .load true :: es)
  rw [txnEvents_append]
  cases lev <;> simpa [risingEdges] using hshift.1

/-- Settles O32: ShiftBody stands between the first write to LOAD and the last two, and does not write LOAD. -/
theorem txnBodyWrites : Obligations.TxnBodyWrites := by
  intro a d
  have heq := List.append_nil (txnEvents (a, d)) ▸ txnEvents_append (a, d) []
  have hlen : (.wr .load true :: shiftEvents (a ++ d)).length = 49 := by rw [List.length_cons, length_shiftEvents]
  have hfront : (txnEvents (a, d)).take 49 = .wr .load true :: shiftEvents (a ++ d) := heq ▸ List.take_left' hlen
  have hzero : (shiftEvents (a ++ d)).countP (Event.isWriteTo .load) = 0 :=
    List.countP_eq_zero.mpr fun e he => ne_true_of_eq_false (no_load_in_shift _ e he)
  have hload := edges_of_no_write (no_load_in_shift (a ++ d)) true
  have hnone := hload []
  have hall := hload [.wr .load false, .wr .load true]
  have hclk (lev : Bool) := risingEdges_clk_shift lev (a ++ d) []
  rw [List.append_nil] at hnone
  simp only [List.append_nil] at hclk
  rw [hfront, heq]
  refine ⟨eventsOf_txnWrites a d, rfl, ?_, ?_, ?_, ?_, ?_, fun lev => ?_⟩
  · simp [List.countP_append, hzero, Event.isWriteTo]
  · simpa [risingEdges] using hall.1
  · simpa [fallingEdges] using hall.2
  · simpa [risingEdges] using hnone.1
  · simpa [fallingEdges] using hnone.2
  · simpa [risingEdges] using hclk lev

/-! ### Several transactions -/

theorem risingEdges_clk_txns (lev : Bool) (ts : List (Byte × Byte)) :
    risingEdges .clk lev (ts.flatMap txnEvents) = 16 * ts.length := by
  induction ts generalizing lev with
  | nil => rfl
  | cons t ts ih => rw [List.flatMap_cons, risingEdges_clk_txn, ih, List.length_cons, Nat.mul_succ, Nat.add_comm]

theorem risingEdges_load_txns (ts : List (Byte × Byte)) : risingEdges .load true (ts.flatMap txnEvents) = ts.length := by
  induction ts with
  | nil => rfl
  | cons t ts ih => rw [List.flatMap_cons, risingEdges_load_txn, ih, List.length_cons, if_pos rfl, Nat.zero_add, Nat.add_comm]

/-- Transactions write DATA only while CLK is low (40_protocol R117 (d)). -/
theorem dataWritten_txns (ts : List (Byte × Byte)) (r : Lines) : dataWrittenOnlyAtClkLow r (ts.flatMap txnEvents) = true := by
  induction ts generalizing r with
  | nil => rfl
  | cons t ts ih =>
    rw [List.flatMap_cons, txnEvents_append]
    exact dataWritten_shift (es := .wr .load false :: .wr .load true :: ts.flatMap txnEvents)
      (fun r => ih ((r.set .load false).set .load true)) (t.1 ++ t.2) (r.set .load true)

/-- Transactions that start with LOAD high move it only while CLK is high (40_protocol R117 (e)). -/
theorem loadMoves_txns (ts : List (Byte × Byte)) {r : Lines} (hr : r.load = true) :
    loadMovesOnlyAtClkHigh r (ts.flatMap txnEvents) = true := by
  induction ts generalizing r with
  | nil => rfl
  | cons t ts ih =>
    have hshift := loadMoves_shift (es := .wr .load false :: .wr .load true :: ts.flatMap txnEvents)
      (fun r hclk _ => by simpa [loadMovesOnlyAtClkHigh, Lines.set, hclk] using ih (r := { r with load := true }) rfl)
      (t.1 ++ t.2) (r := r.set .load true) rfl
    rw [List.flatMap_cons, txnEvents_append]
    simpa [loadMovesOnlyAtClkHigh, hr] using hshift

end Sys2Proof.Machine
end

section
/-! SUPPORT. The proofs about the commands of the protocol driver (40_protocol R111 to R116): what SHIFT16, TXN, INIT and
FRAME_OUT leave, what they raise, and which words are they. -/

namespace Sys2Proof.Machine

/-! ### Words and phases -/

/-- A word that the decoder rejects raises ILLEGAL_CMD (42_control R162). -/
theorem raisesIllegalCmd_of_error {w : Word} {e : DecodeError} (h : decode (.cmd32 w) = .error e) : raisesIllegalCmd w := by
  intro s rest hbusy hlive hi
  have hops : commandOps w (s.accept rest) = illegalOps := by rw [commandOps, h]
  refine ⟨_, by rw [step, hi]; exact offer_cmd32 rest (accepts_eq_true.mpr ⟨hbusy, hlive⟩) w, ?_⟩
  rw [hops]
  rfl

/-- A word of a known OP is its command if its reserved bits are 0, and illegal if not (30_encoding R83). -/
theorem decode_or_raises {n : Nat} {w : Word} {r : BitVec n} {i : Instr} (h : decodeCmd w = withReserved w r i) :
    if r = 0 then decode (.cmd32 w) = .ok i else raisesIllegalCmd w := by
  have hd : decode (.cmd32 w) = withReserved w r i := h
  by_cases hr : r = 0
  · rw [if_pos hr, hd, withReserved, if_pos hr]
  · rw [withReserved, if_neg hr] at hd
    rw [if_neg hr]
    exact raisesIllegalCmd_of_error hd

/-- Before INIT the commands after it raise SEQUENCE (42_control R161). -/
theorem complete_before_init {s : State} (hp : s.phase = .encode) (ops : List Micro) :
    complete (phaseCheck .configured s ops) s = s.faultedWith .sequence 1 s.badchar := by
  have hops : phaseCheck .configured s ops = [.raise .sequence 0] := by simp [phaseCheck, hp]
  rw [hops]
  rfl

/-- After INIT a command of line writes makes them and completes. -/
theorem complete_writes {s : State} (hp : s.phase = .configured ∨ s.phase = .sent) (ws : List (Line × Bool)) :
    complete (phaseCheck .configured s (writeOps ws)) s = (s.writes ws).idle := by
  rw [phaseCheck_after_init hp, ← List.append_nil (writeOps ws), complete, runOps_writes]
  rfl

/-! ### SHIFT16 and TXN -/

section
variable {s : State} (hp : s.phase = .configured ∨ s.phase = .sent)
include hp

theorem exec_shift16 (v : Wire) :
    exec (.shift16 v) s = .next
      { s with
        lv := { s.lv with data := v.getLsbD 0, clk := true }
        trace := s.trace ++ shiftEvents v
        rx := { s.rx with sr := v, data := v.getLsbD 0, clk := true }
        busy := false
        seq := [] } := by
  rw [exec, execShift16, shift16Ops, complete_writes hp, State.writes, setAll_shiftWrites, eventsOf_shiftWrites,
    seeAll_shiftWrites]
  rfl

/-- TXN on lines in any state: the receiver sees TxnBody (40_protocol R113). -/
theorem exec_txn (a d : Byte) :
    exec (.txn a d) s = .next
      { s with
        lv := ⟨d.getLsbD 0, true, true⟩
        trace := s.trace ++ txnEvents (a, d)
        rx := s.rx.seeAll (txnWrites a d)
        busy := false
        seq := [] } := by
  rw [exec, execTxn, txnOps, complete_writes hp, State.writes, setAll_txnWrites, eventsOf_txnWrites]
  rfl

end

/-- Settles O33: after INIT the sixteen bits are shifted in and nothing is latched; before it the phase check raises. -/
theorem shift16SendsSixteenBits : Obligations.Shift16SendsSixteenBits :=
  ⟨fun _ v hp => exec_shift16 hp v, fun _ _ hp => congrArg Host.Outcome.next (complete_before_init hp _),
    fun _ hop => decode_or_raises (decodeCmd_op4 hop)⟩

/-- Settles O34: a receiver that last saw LOAD high latches nothing at TxnBody's first write, and its word at the last. -/
theorem txnLatchesExactlyItsWord : Obligations.TxnLatchesExactlyItsWord := by
  refine ⟨fun s a d hp hload => ?_, fun s a d hp => ⟨_, exec_txn hp a d, rfl⟩,
    fun _ _ _ hp => congrArg Host.Outcome.next (complete_before_init hp _), fun _ hop => decode_or_raises (decodeCmd_op5 hop)⟩
  rw [exec_txn hp, seeAll_txnWrites, if_pos hload, latch_wireWord]
  rfl

/-! ### What transactions leave at the receiver -/

/-- RX_LOG after LOAD is driven high, in INIT step 2 or by a first transaction (20_memory R65). -/
theorem see_load_high_log (r : Receiver) : (r.see .load true).log = r.log ++ if r.load then [] else [r.sr] := by
  rw [see_load_high]
  cases h : r.load <;> simp [Receiver.latch]

theorem see_load_high_reg (r : Receiver) :
    (r.see .load true).reg = if r.load then r.reg
      else r.reg.set (bits 8 8 r.sr : Byte).toNat (bits 0 8 r.sr) (bits 8 8 r.sr : Byte).isLt := by
  rw [see_load_high]
  cases r.load <;> rfl

theorem see_load_high_reg_other {r : Receiver} {x : Nat} (hx : x < 256)
    (h : r.load = true ∨ x ≠ (bits 8 8 r.sr : Byte).toNat) : (r.see .load true).reg[x] = r.reg[x] := by
  simp only [see_load_high_reg]
  split
  · rfl
  · next hload => exact Vector.getElem_set_ne _ _ (h.resolve_left hload).symm

/-- INIT step 2 at the receiver (40_protocol R114, 20_memory R65). -/
theorem seeAll_initLevels (r : Receiver) :
    r.seeAll initLevels = { r.see .load true with clk := false, data := false } := rfl

/-- Transactions start with LOAD driven high, and to drive it high twice is to drive it high once (20_memory R59). -/
theorem seeAll_txnsWrites_see_load (r : Receiver) (t : Byte × Byte) (ts : List (Byte × Byte)) :
    r.seeAll (txnsWrites (t :: ts)) = (r.see .load true).seeAll (txnsWrites (t :: ts)) := by
  have hfirst : txnsWrites (t :: ts) = (.load, true) :: (txnsWrites (t :: ts)).tail := by simp [txnsWrites, txnWrites]
  have htwice : (r.see .load true).see .load true = r.see .load true := see_load_level (.inl rfl)
  rw [hfirst, seeAll_cons, seeAll_cons, htwice]

/-- The register at an address that one transaction of a list has holds its data (20_memory R64). -/
theorem latchedRegs_of_mem {reg : Vector Byte 256} {ts : List (Byte × Byte)} (hnd : (ts.map Prod.fst).Nodup) {a d : Byte}
    (h : (a, d) ∈ ts) {x : Nat} (hx : x < 256) (ha : a.toNat = x) : (latchedRegs reg ts)[x] = d := by
  subst ha
  induction ts generalizing reg with
  | nil => cases h
  | cons t ts ih =>
    obtain ⟨hfresh, hnd⟩ := List.nodup_cons.mp hnd
    obtain rfl | h := List.mem_cons.mp h
    · have hother : ∀ u ∈ ts, u.1.toNat ≠ a.toNat := fun u hu he =>
        hfresh (List.mem_map.mpr ⟨u, hu, BitVec.eq_of_toNat_eq he⟩)
      exact (latchedRegs_other _ ts _ a.isLt hother).trans (Vector.getElem_set_self _)
    · exact ih hnd h

/-- The registers after transactions at a receiver that last saw LOAD high (40_protocol R118). -/
theorem seeAll_txnsWrites_reg {r : Receiver} (hl : r.load = true) (ts : List (Byte × Byte)) :
    (r.seeAll (txnsWrites ts)).reg = latchedRegs r.reg ts := by
  obtain rfl | ⟨us, u, rfl⟩ := List.eq_nil_or_concat ts
  · rfl
  · rw [List.concat_eq_append, seeAll_txnsWrites r us u.1 u.2 hl]

/-! ### FRAME_OUT -/

/-- What FRAME_OUT latches (40_protocol R116): after the word a first LOAD edge may latch, each slot. -/
theorem seeAll_frameTransactions (r : Receiver) (f : Vector Byte 8) :
    (r.seeAll (txnsWrites (frameTransactions f))).log = (r.see .load true).log ++
        (frameTransactions f).map (fun t => wireWord t.1 t.2) ∧
      (r.seeAll (txnsWrites (frameTransactions f))).reg = latchedRegs (r.see .load true).reg (frameTransactions f) := by
  rw [frameTransactions, seeAll_txnsWrites_see_load, ← frameTransactions]
  exact ⟨(seeAll_txnsWrites_log rfl _).1, seeAll_txnsWrites_reg rfl _⟩

theorem nodup_frame_addresses (f : Vector Byte 8) : ((frameTransactions f).map Prod.fst).Nodup := by
  have haddr : (frameTransactions f).map Prod.fst = [1, 2, 3, 4, 5, 6, 7, 8] := rfl
  rw [haddr]
  decide

/-- Slot s goes to address s + 1, which is 1 to 8 (20_memory R53). -/
theorem frame_address (i : Fin 8) : (BitVec.ofNat 8 (i.val + 1)).toNat = i.val + 1 := by
  rw [BitVec.toNat_ofNat]
  omega

theorem mem_frameTransactions {t : Byte × Byte} {f : Vector Byte 8} :
    t ∈ frameTransactions f ↔ ∃ i : Fin 8, (BitVec.ofNat 8 (i.val + 1), f[i]) = t := by
  simp only [frameTransactions_eq_map, List.mem_map, List.mem_finRange, true_and]

/-- Settles O38: the eight addresses are different, and FRAME_OUT sends each slot to its own. -/
theorem frameOutSendsEverySlot : Obligations.FrameOutSendsEverySlot := by
  refine ⟨fun s hp => ⟨_, exec_frameOut hp, ?_, ?_, fun i => ?_, fun x hx hload => ?_⟩,
    fun s hp => congrArg Host.Outcome.next (complete_before_init hp _), fun w hop => decode_or_raises (decodeCmd_op6 hop)⟩
  all_goals obtain ⟨hlog, hreg⟩ := seeAll_frameTransactions s.rx s.frame
  · rw [State.afterFrameOut, frameTransactions_eq_map, List.flatMap_map]
  · rw [State.afterFrameOut, hlog, see_load_high_log, frameTransactions_eq_map, List.map_map]
    rfl
  · simp only [State.afterFrameOut, hreg]
    exact latchedRegs_of_mem (nodup_frame_addresses s.frame) (mem_frameTransactions.mpr ⟨i, rfl⟩) _ (frame_address i)
  · have hother : ∀ t ∈ frameTransactions s.frame, t.1.toNat ≠ x.val := by
      intro t ht
      obtain ⟨i, rfl⟩ := mem_frameTransactions.mp ht
      simp only [frame_address]
      omega
    simp only [State.afterFrameOut, hreg, Fin.getElem_fin, latchedRegs_other _ _ x.val x.isLt hother]
    exact see_load_high_reg_other x.isLt hload

/-! ### INIT -/

theorem exec_init_encode {s : State} (hp : s.phase = .encode) (n m k : Byte) :
    exec (.init n m k) s = .next (complete (if 7 < n then [.raise .cfgDigitcount 0]
      else if 15 < k then [.raise .cfgIntensity 0] else initBody n m k) s) := by
  rw [exec, execInit, initOps, phaseCheck_encode hp]
  rfl

/-- Settles O36: the checks of the bounds come first, digitCount's before intensity's, and a raise moves no line. -/
theorem initBoundFaultsTouchNoLine : Obligations.InitBoundFaultsTouchNoLine := by
  intro s n m k hp
  rw [exec_init_encode hp]
  refine ⟨fun hn => ?_, fun hn hk => ?_⟩
  · rw [if_pos hn]
    rfl
  · rw [if_neg (BitVec.not_lt.mpr hn), if_pos hk]
    rfl

/-- Within its bounds INIT runs its steps (40_protocol R114). -/
theorem exec_init_in_bounds {s : State} {n m k : Byte} (hp : s.phase = .encode) (hn : n ≤ 7) (hk : k ≤ 15) :
    exec (.init n m k) s = .next (complete (initBody n m k) s) := by
  rw [exec_init_encode hp, if_neg (BitVec.not_lt.mpr hn), if_neg (BitVec.not_lt.mpr hk)]

/-- Without a platform INIT ends in PlatformSetup (40_protocol R114 step 1). -/
theorem complete_initBody_platform {s : State} (hplat : s.platOk = false) (n m k : Byte) :
    complete (initBody n m k) s = { s.faultedWith .platform 1 s.badchar with trace := s.trace ++ [.plat false] } := by
  have hstop : Micro.platformSetup.run s = .stop (State.raise .platform 0 { s with trace := s.trace ++ [.plat false] }) := by
    simp [Micro.run, State.platformSetup, hplat]
  exact complete_stop hstop _

/-- The events of an INIT that reads LOAD back as 0 (40_protocol R114). -/
def loadbackEvents : List Event :=
  [.plat true, .cfg .data, .cfg .clk, .cfg .load, .wr .load true, .wr .clk false, .wr .data false, .rd false]

/-- With LOAD read back as 0 INIT ends in step 3 (40_protocol R114). -/
theorem complete_initBody_loadback {s : State} (hplat : s.platOk = true) (hload : s.loadI = false) (n m k : Byte) :
    complete (initBody n m k) s =
      { s.faultedWith .loadback 2 s.badchar with
        oe := ⟨true, true, true⟩
        lv := ⟨false, false, true⟩
        trace := s.trace ++ loadbackEvents
        rx := s.rx.seeAll initLevels
        obsStart := some (s.rx.seeAll initLevels).log.length } := by
  rw [initBody_eq, complete]
  simp [initSetup, initLevels, loadbackEvents, writeOps, runOps, Micro.run, State.platformSetup, State.readLoad, hplat, hload,
    State.lineCfgOut, State.lineWrite, Lines.set, State.raise, State.idle, State.faultedWith, FaultCode.exit]

/-- Settles O37: PlatformSetup and LineRead end INIT where they stand, and the receiver has seen step 2 before LineRead. -/
theorem initEnvironmentFaults : Obligations.InitEnvironmentFaults := by
  intro s n m k hp hn hk
  rw [exec_init_in_bounds hp hn hk]
  refine ⟨fun hplat => congrArg _ (complete_initBody_platform hplat n m k), fun hplat hload => ⟨_, rfl, ?_⟩⟩
  rw [complete_initBody_loadback hplat hload, seeAll_initLevels]
  refine ⟨rfl, see_load_high_log s.rx, List.drop_length, see_load_high_reg s.rx, ?_, rfl, rfl, rfl⟩
  rw [see_load_high]
  cases s.rx.load <;> rfl

/-! The configuration words go to six different addresses (40_protocol R115). -/

theorem nodup_init_addresses (n m k : Byte) : ((initTransactions n m k).map Prod.fst).Nodup := by
  have haddr : (initTransactions n m k).map Prod.fst = [0x00, 0x0B, 0x09, 0x0F, 0x0A, 0x0C] := rfl
  rw [haddr]
  decide

/-- What INIT latches (40_protocol R115, 20_memory R65). -/
theorem afterInit_rx (s : State) (n m k : Byte) :
    (s.afterInit n m k).rx =
      { sr := 0x0C01, data := true, clk := true, load := true,
        log := (s.rx.seeAll initLevels).log ++ [0x0000, 0x0B#8 ++ n, 0x09#8 ++ m, 0x0F00, 0x0A#8 ++ k, 0x0C01],
        reg := latchedRegs (s.rx.see .load true).reg (initTransactions n m k) } := by
  obtain ⟨ts, hts⟩ := initTransactions_eq_concat n m k
  rw [State.afterInit, hts, seeAll_txnsWrites _ ts _ _ (seeAll_initLevels_load s.rx), ← hts]
  rfl

theorem initEvents_eq : initEvents =
    [.plat true, .cfg .data, .cfg .clk, .cfg .load, .wr .load true, .wr .clk false, .wr .data false, .rd true] := rfl

theorem log_seeAll_initLevels (r : Receiver) : (r.seeAll initLevels).log = r.log ++ if r.load then [] else [r.sr] :=
  see_load_high_log r

/-- Settles O35: INIT runs to `afterInit`, and its six words go to six different addresses of a receiver that last saw LOAD
high. -/
theorem initConfiguresTheController : Obligations.InitConfiguresTheController := by
  intro s n m k hp hn hk hplat hload
  have hword {a d : Byte} (h : (a, d) ∈ initTransactions n m k) {x : Nat} (hx : x < 256) (ha : a.toNat = x) :
      (latchedRegs (s.rx.see .load true).reg (initTransactions n m k))[x] = d :=
    latchedRegs_of_mem (nodup_init_addresses n m k) h hx ha
  have hlen : (s.rx.seeAll initLevels).log.length = s.rx.log.length + if s.rx.load then 0 else 1 := by
    rw [log_seeAll_initLevels]
    cases s.rx.load <;> simp
  have hobs : (s.afterInit n m k).observedWords = (s.afterInit n m k).rx.log.drop (s.rx.seeAll initLevels).log.length := rfl
  refine ⟨_, exec_init hp hn hk hplat hload, ?_, ?_, ?_, ?_⟩
  · rw [State.afterInit, hlen, initTransactions, initEvents_eq]
  · rw [afterInit_rx, log_seeAll_initLevels]
  · rw [hobs, afterInit_rx, List.drop_left]
  · simp only [afterInit_rx, true_and]
    refine ⟨hword (a := 0x00) ?_ _ rfl, hword (a := 0x0B) ?_ _ rfl, hword (a := 0x09) ?_ _ rfl, hword (a := 0x0F) ?_ _ rfl,
      hword (a := 0x0A) ?_ _ rfl, hword (a := 0x0C) ?_ _ rfl, fun x hx hedge => ?_⟩
    case refine_7 =>
      have haddr : ∀ t ∈ initTransactions n m k, t.1.toNat ∈ [0x00, 0x09, 0x0A, 0x0B, 0x0C, 0x0F] := by simp [initTransactions]
      have hother : ∀ t ∈ initTransactions n m k, t.1.toNat ≠ x.val := fun t ht he => hx (he ▸ haddr t ht)
      exact (latchedRegs_other _ _ x.val x.isLt hother).trans (see_load_high_reg_other x.isLt hedge)
    all_goals simp [initTransactions]

end Sys2Proof.Machine
end

section
/-! SUPPORT. The proofs about the events of a command (40_protocol R117, R119): which commands record any, how many, and at which
levels they write DATA and LOAD. -/

namespace Sys2Proof.Machine

/-! ### Commands without an event -/

theorem eventsSince_eq {s t : State} {es : List Event} (h : t.trace = s.trace ++ es) : eventsSince s t = es := by
  rw [eventsSince, h, List.drop_left]

theorem Micro.OfEncoder.keeps_trace {m : Micro} (h : m.OfEncoder) : m.Keeps State.trace := by
  intro s
  cases h with
  | clearFrame | badChar => rfl
  | encodeDigit code =>
    simp only [Micro.run, State.encodeDigit]
    split <;> rfl
  | encodeDp =>
    simp only [Micro.run, State.encodeDp]
    split <;> rfl

/-- A command that is one micro-operation, or the raise of SEQUENCE, or nothing (42_control R161). -/
theorem trace_complete_single {m : Micro} (hm : m.Keeps State.trace) (need : Need) (s : State) :
    (complete (phaseCheck need s [m]) s).trace = s.trace := by
  refine runOps_keeps (f := State.trace) (fun m' hm' => ?_) s
  obtain hm' | rfl := mem_phaseCheck hm'
  · rwa [List.mem_singleton.mp hm']
  · exact fun _ => rfl

/-- The four commands that write lines (40_protocol R111 to R116). -/
def drivesLines : Instr → Bool
  | .init _ _ _ => true
  | .shift16 _ => true
  | .txn _ _ => true
  | .frameOut => true
  | _ => false

/-- An instruction that drives no line records no event (40_protocol R119). -/
theorem trace_of_silent {i : Instr} (hi : drivesLines i = false) {s t : State} (h : exec i s = .next t) :
    t.trace = s.trace := by
  cases hb : blockRuns i with
  | false =>
    obtain ⟨a, d, he⟩ := exec_of_not_blockRuns hb
    cases (he s).symm.trans h
    rfl
  | true =>
    cases (exec_of_blockRuns hb s).symm.trans h
    have hencoder {m : Micro} (hm : m.OfEncoder) := trace_complete_single hm.keeps_trace .encoding s
    cases i with
    | init | shift16 | txn | frameOut => cases hi
    | halt => exact trace_complete_single (fun _ => rfl) .live s
    | encClear => exact hencoder .clearFrame
    | encChar c =>
      obtain ⟨m, hm, ho⟩ := encCharOps_single c s
      rw [opsOf, ho]
      exact hencoder hm
    | charDot => exact hencoder .encodeDp
    | charInvalid c => exact hencoder (.badChar c)
    | wireNoop | wireDigit0 | wireDigit1 | wireDigit2 | wireDigit3 | wireDigit4 | wireDigit5 | wireDigit6 | wireDigit7
    | wireDecodeMode | wireIntensity | wireScanLimit | wireShutdown | wireDisplayTest => cases hb
    | _ => exact hencoder (.encodeDigit _)

/-! ### The events of the driver's commands -/

/-- Outside CONFIGURED and SENT the commands that INIT opens record no event and do not lead there (42_control R161). -/
theorem trace_not_after_init {s : State} (hp : ¬ (s.phase = .configured ∨ s.phase = .sent)) (ops : List Micro) :
    (complete (phaseCheck .configured s ops) s).trace = s.trace ∧
      ¬ ((complete (phaseCheck .configured s ops) s).phase = .configured ∨
        (complete (phaseCheck .configured s ops) s).phase = .sent) := by
  obtain he | he | ⟨-, -, hconf⟩ := phaseCheck_admits .configured s ops
  · rw [he]
    exact ⟨rfl, hp⟩
  · rw [he]
    exact ⟨rfl, by simp⟩
  · exact absurd (hconf rfl) hp

section
variable {s t : State}

/-- After INIT a command records its events; else it records none and is not in CONFIGURED or SENT when it ends. -/
theorem trace_of_exec {i : Instr} {ops : State → List Micro} {es : State → List Event}
    (hi : ∀ s, exec i s = .next (complete (phaseCheck .configured s (ops s)) s))
    (hes : ∀ s u : State, s.phase = .configured ∨ s.phase = .sent → exec i s = .next u → u.trace = s.trace ++ es s)
    (h : exec i s = .next t) :
    t.trace = s.trace ++ es s ∨ (t.trace = s.trace ∧ ¬ (t.phase = .configured ∨ t.phase = .sent)) := by
  by_cases hp : s.phase = .configured ∨ s.phase = .sent
  · exact .inl (hes s t hp h)
  · cases (hi s).symm.trans h
    exact .inr (trace_not_after_init hp (ops s))

theorem trace_shift16 {v : Wire} (h : exec (.shift16 v) s = .next t) :
    t.trace = s.trace ++ shiftEvents v ∨ (t.trace = s.trace ∧ ¬ (t.phase = .configured ∨ t.phase = .sent)) := by
  refine trace_of_exec (fun _ => rfl) (es := fun _ => shiftEvents v) (fun s u hp hu => ?_) h
  cases (exec_shift16 hp v).symm.trans hu
  rfl

theorem trace_txn {a d : Byte} (h : exec (.txn a d) s = .next t) :
    t.trace = s.trace ++ [(a, d)].flatMap txnEvents ∨ (t.trace = s.trace ∧ ¬ (t.phase = .configured ∨ t.phase = .sent)) := by
  refine trace_of_exec (fun _ => rfl) (es := fun _ => [(a, d)].flatMap txnEvents) (fun s u hp hu => ?_) h
  cases (exec_txn hp a d).symm.trans hu
  rw [List.flatMap_singleton]

theorem trace_frameOut (h : exec .frameOut s = .next t) :
    t.trace = s.trace ++ (frameTransactions s.frame).flatMap txnEvents ∨
      (t.trace = s.trace ∧ ¬ (t.phase = .configured ∨ t.phase = .sent)) := by
  refine trace_of_exec (fun _ => rfl) (es := fun s => (frameTransactions s.frame).flatMap txnEvents) (fun s u hp hu => ?_) h
  cases (exec_frameOut hp).symm.trans hu
  rfl

/-- Outside ENCODE INIT records no event (42_control R161). -/
theorem trace_init_not_encode {n m k : Byte} (hp : s.phase ≠ .encode) (h : exec (.init n m k) s = .next t) :
    t.trace = s.trace := by
  cases (exec_of_blockRuns (i := .init n m k) rfl s).symm.trans h
  rw [opsOf, initOps]
  obtain he | he | ⟨-, henc, -⟩ := phaseCheck_admits .encoding s
    (if 7#8 < n then [.raise .cfgDigitcount 0] else if 15#8 < k then [.raise .cfgIntensity 0] else initBody n m k)
  · rw [he]
    rfl
  · rw [he]
    rfl
  · exact absurd (henc rfl) hp

/-- INIT records its steps 1 to 3 and its six transactions, or what there is of steps 1 to 3 before its fault (40_protocol R114,
R115). -/
theorem trace_init {n m k : Byte} (h : exec (.init n m k) s = .next t) :
    t.trace = s.trace ++ (initEvents ++ (initTransactions n m k).flatMap txnEvents) ∨
      (∃ es ∈ [[], [.plat false], loadbackEvents], t.trace = s.trace ++ es) ∧ (s.phase = .encode → t.phase = .faulted) := by
  by_cases hp : s.phase = .encode
  case neg => exact .inr ⟨⟨[], by simp [trace_init_not_encode hp h]⟩, fun hp' => absurd hp' hp⟩
  by_cases hn : 7 < n
  · cases ((initBoundFaultsTouchNoLine s n m k hp).1 hn).symm.trans h
    exact .inr ⟨⟨[], by simp⟩, fun _ => rfl⟩
  replace hn : n ≤ 7 := BitVec.not_lt.mp hn
  by_cases hk : 15 < k
  · cases ((initBoundFaultsTouchNoLine s n m k hp).2 hn hk).symm.trans h
    exact .inr ⟨⟨[], by simp⟩, fun _ => rfl⟩
  replace hk : k ≤ 15 := BitVec.not_lt.mp hk
  cases hplat : s.platOk with
  | false =>
    rw [exec_init_in_bounds hp hn hk, complete_initBody_platform hplat] at h
    cases h
    exact .inr ⟨⟨[.plat false], by simp⟩, fun _ => rfl⟩
  | true =>
    cases hload : s.loadI with
    | false =>
      rw [exec_init_in_bounds hp hn hk, complete_initBody_loadback hplat hload] at h
      cases h
      exact .inr ⟨⟨loadbackEvents, by simp⟩, fun _ => rfl⟩
    | true =>
      cases (exec_init hp hn hk hplat hload).symm.trans h
      exact .inl (List.append_assoc ..)

end

/-! ### How many events -/

/-- The counts and edges of a SHIFT16 (40_protocol R119). -/
theorem counts_shift (v : Wire) : eventCounts (shiftEvents v) = (0, 0, 48, 0) ∧
    ∀ lev, risingEdges .clk lev (shiftEvents v) = 16 ∧ risingEdges .load lev (shiftEvents v) = 0 := by
  obtain ⟨-, -, -, hclk, -⟩ := shiftBodyWrites v
  refine ⟨rfl, fun lev => ⟨hclk lev, ?_⟩⟩
  have hload := (edges_of_no_write (no_load_in_shift v) lev []).1
  rwa [List.append_nil] at hload

/-- The counts and edges of transactions from LOAD high (40_protocol R119). -/
theorem counts_txns (ts : List (Byte × Byte)) : eventCounts (ts.flatMap txnEvents) = (0, 0, 51 * ts.length, 0) ∧
    (∀ lev, risingEdges .clk lev (ts.flatMap txnEvents) = 16 * ts.length) ∧
    risingEdges .load true (ts.flatMap txnEvents) = ts.length :=
  ⟨eventCounts_txns ts, fun lev => risingEdges_clk_txns lev ts, risingEdges_load_txns ts⟩

/-- The counts and edges of INIT (40_protocol R119): step 2 adds a LOAD rising edge if LOAD was low, and none of CLK. -/
theorem counts_init (ts : List (Byte × Byte)) :
    eventCounts (initEvents ++ ts.flatMap txnEvents) = (1, 3, 3 + 51 * ts.length, 1) ∧
    ∀ lev, risingEdges .clk lev (initEvents ++ ts.flatMap txnEvents) = 16 * ts.length ∧
      risingEdges .load lev (initEvents ++ ts.flatMap txnEvents) = ts.length + if lev then 0 else 1 := by
  have hinit : eventCounts initEvents = (1, 3, 3, 1) := rfl
  refine ⟨?_, fun lev => ⟨?_, ?_⟩⟩
  · rw [eventCounts_append, eventCounts_txns, hinit]
    rfl
  · simp [initEvents_eq, risingEdges, risingEdges_clk_txns]
  · cases lev <;> simp [initEvents_eq, risingEdges, risingEdges_load_txns, Nat.add_comm]

/-- Settles O39: each command that completes records the events of its writes, and those that write no line record none. -/
theorem eventCountsPerCommand : Obligations.EventCountsPerCommand := by
  refine ⟨fun s t v h ht => ?_, fun s t a d h ht => ?_, fun s t n m k h hp ht => ?_, fun s t h ht _ => ?_, fun s t i hi h => ?_⟩
  · obtain htrace | ⟨-, hn⟩ := trace_shift16 h
    · exact eventsSince_eq htrace ▸ counts_shift v
    · exact absurd ht hn
  · obtain htrace | ⟨-, hn⟩ := trace_txn h
    · exact eventsSince_eq htrace ▸ counts_txns [(a, d)]
    · exact absurd ht hn
  · obtain htrace | ⟨-, hfault⟩ := trace_init h
    · exact eventsSince_eq htrace ▸ counts_init (initTransactions n m k)
    · exact absurd ((hfault hp).symm.trans ht) nofun
  · obtain htrace | ⟨-, hn⟩ := trace_frameOut h
    · exact eventsSince_eq htrace ▸ counts_txns (frameTransactions s.frame)
    · exact absurd (.inr ht) hn
  · have hsilent : drivesLines i = false := by obtain rfl | rfl | ⟨c, rfl⟩ := hi <;> rfl
    exact eventsSince_eq ((trace_of_silent hsilent h).trans (List.append_nil _).symm)

/-! ### At which levels -/

/-- The events of ShiftBody, or those of some transactions, maybe none. -/
def OfBodies (es : List Event) : Prop := (∃ v, es = shiftEvents v) ∨ ∃ ts : List (Byte × Byte), es = ts.flatMap txnEvents

theorem trace_of_not_init {i : Instr} (hinit : ∀ n m k, i ≠ .init n m k) {s t : State} (h : exec i s = .next t) :
    ∃ es, t.trace = s.trace ++ es ∧ OfBodies es := by
  have hnone (ht : t.trace = s.trace) : ∃ es, t.trace = s.trace ++ es ∧ OfBodies es :=
    ⟨[], ht.trans (List.append_nil _).symm, .inr ⟨[], rfl⟩⟩
  cases i with
  | init n m k => exact absurd rfl (hinit n m k)
  | shift16 v =>
    obtain ht | ⟨ht, -⟩ := trace_shift16 h
    · exact ⟨_, ht, .inl ⟨v, rfl⟩⟩
    · exact hnone ht
  | txn a d =>
    obtain ht | ⟨ht, -⟩ := trace_txn h
    · exact ⟨_, ht, .inr ⟨_, rfl⟩⟩
    · exact hnone ht
  | frameOut =>
    obtain ht | ⟨ht, -⟩ := trace_frameOut h
    · exact ⟨_, ht, .inr ⟨_, rfl⟩⟩
    · exact hnone ht
  | _ => exact hnone (trace_of_silent rfl h)

/-- INIT's own events write DATA at CLK low, after step 2 has set CLK low (40_protocol R114). -/
theorem dataWritten_init (r : Lines) (ts : List (Byte × Byte)) :
    dataWrittenOnlyAtClkLow r (initEvents ++ ts.flatMap txnEvents) = true := by
  simp [initEvents_eq, dataWrittenOnlyAtClkLow, Lines.set, dataWritten_txns]

theorem dataWritten_of_exec {i : Instr} {s t : State} (h : exec i s = .next t) :
    ∃ es, t.trace = s.trace ++ es ∧ dataWrittenOnlyAtClkLow s.lv es = true := by
  by_cases hinit : ∃ n m k, i = .init n m k
  · obtain ⟨n, m, k, rfl⟩ := hinit
    obtain ht | ⟨⟨es, hes, ht⟩, -⟩ := trace_init h
    · exact ⟨_, ht, dataWritten_init _ _⟩
    · refine ⟨es, ht, ?_⟩
      simp only [List.mem_cons, List.not_mem_nil, or_false] at hes
      obtain rfl | rfl | rfl := hes <;> simp [loadbackEvents, dataWrittenOnlyAtClkLow, Lines.set]
  · obtain ⟨es, ht, ⟨v, rfl⟩ | ⟨ts, rfl⟩⟩ := trace_of_not_init (fun n m k he => hinit ⟨n, m, k, he⟩) h
    · have hshift := dataWritten_shift (es := []) (fun _ => rfl) v s.lv
      rw [List.append_nil] at hshift
      exact ⟨_, ht, hshift⟩
    · exact ⟨_, ht, dataWritten_txns ts s.lv⟩

/-- Settles O40: SHIFT16 and the transactions meet both rules whatever LV is, once LOAD is high, and INIT's transactions start
with LOAD high. -/
theorem linesMoveOnlyAtTheirClockLevel : Obligations.LinesMoveOnlyAtTheirClockLevel := by
  refine ⟨fun i s t h => ?_, fun i s t hinit hload h => ?_, fun n m k s t h => ?_⟩
  · obtain ⟨es, ht, hes⟩ := dataWritten_of_exec h
    rw [eventsSince_eq ht]
    exact ⟨ht, hes⟩
  · obtain ⟨es, ht, ⟨v, rfl⟩ | ⟨ts, rfl⟩⟩ := trace_of_not_init hinit h
    · have hshift := loadMoves_shift (es := []) (fun _ _ _ => rfl) v hload
      rw [List.append_nil] at hshift
      rwa [eventsSince_eq ht]
    · rw [eventsSince_eq ht]
      exact loadMoves_txns ts hload
  · obtain ht | ⟨⟨es, hes, ht⟩, -⟩ := trace_init h
    · have hlen : initEvents.length = 8 := rfl
      rw [eventsSince_eq ht, List.take_left' hlen, List.drop_left' hlen]
      exact loadMoves_txns _ rfl
    · rw [eventsSince_eq ht]
      simp only [List.mem_cons, List.not_mem_nil, or_false] at hes
      obtain rfl | rfl | rfl := hes <;> rfl

end Sys2Proof.Machine
end

section
/-! SUPPORT. The proof about the block's invariant (10_state R21, R22, R26 to R29, 41_encoder R146): each micro-operation keeps
it in a live phase, whatever command it belongs to, and so does a command wherever it pauses or ends. -/

namespace Sys2Proof.Machine

/-! ### What the invariant speaks of -/

/-- The frame, the cursor and the record of a fault. -/
def State.recordView (s : State) : Vector Byte 8 × BitVec 4 × Option FaultCode × Byte × Byte :=
  (s.frame, s.cur, s.fcode, s.exitCode, s.badchar)

theorem State.EncoderInv.of_eq {s t : State} (h : s.EncoderInv) (hframe : t.frame = s.frame) (hcur : t.cur = s.cur) :
    t.EncoderInv where
  cur_le := hcur ▸ h.cur_le
  zero_bits := hframe ▸ h.zero_bits
  above_cur := hframe ▸ hcur ▸ h.above_cur
  at_cur := hframe ▸ hcur ▸ h.at_cur

/-- In a live phase no fault is recorded (10_state R27 to R29). -/
theorem State.RecordInv.of_live {s : State} (h : s.RecordInv) (hl : s.phase.live = true) :
    s.fcode = none ∧ s.exitCode = 0 ∧ s.badchar = 0 := by
  unfold State.RecordInv at h
  split at h
  · next hf =>
    obtain ⟨-, hexit, hbad⟩ := h
    exact ⟨hf, hexit, hbad⟩
  · obtain ⟨hp, -⟩ := h
    rw [hp] at hl
    cases hl

/-- With no fault recorded the phase is any but FAULTED, and EXIT and BADCHAR are 0. -/
theorem recordInv_of_none {s : State} (hf : s.fcode = none) (hp : s.phase ≠ .faulted) (hexit : s.exitCode = 0)
    (hbad : s.badchar = 0) : s.RecordInv := by
  rw [State.RecordInv, hf]
  exact ⟨hp, hexit, hbad⟩

/-- The invariant does not speak of the lines, the ports, the schedule, the trace, the receiver or cp. -/
theorem State.BlockInv.of_view {s t : State} (h : s.BlockInv) (hview : t.recordView = s.recordView)
    (hphase : t.phase = s.phase) (hbusy : t.busy = s.busy) (hseq : t.seq = s.seq) : t.BlockInv := by
  simp only [State.recordView, Prod.mk.injEq] at hview
  obtain ⟨hframe, hcur, hfcode, hexit, hbad⟩ := hview
  refine ⟨h.encoder.of_eq hframe hcur, ?_, ?_⟩
  · rw [State.RecordInv, hfcode, hphase, hexit, hbad]
    exact h.record
  · rw [State.SequencerInv, hphase, hbusy, hseq]
    exact h.sequencer

/-- What the invariant says in a live phase, whatever is left to run: what a command runs in. -/
structure State.LiveInv (s : State) : Prop where
  encoder : s.EncoderInv
  live : s.phase.live = true
  fcode : s.fcode = none
  exitCode : s.exitCode = 0
  badchar : s.badchar = 0

theorem State.BlockInv.liveInv {s : State} (h : s.BlockInv) (hl : s.phase.live = true) : s.LiveInv :=
  have ⟨hfcode, hexit, hbad⟩ := h.record.of_live hl
  ⟨h.encoder, hl, hfcode, hexit, hbad⟩

theorem State.LiveInv.of_view {s t : State} (h : s.LiveInv) (hview : t.recordView = s.recordView)
    (hl : t.phase.live = true) : t.LiveInv := by
  simp only [State.recordView, Prod.mk.injEq] at hview
  obtain ⟨hframe, hcur, hfcode, hexit, hbad⟩ := hview
  exact ⟨h.encoder.of_eq hframe hcur, hl, hfcode.trans h.fcode, hexit.trans h.exitCode, hbad.trans h.badchar⟩

theorem State.LiveInv.blockInv {s : State} (h : s.LiveInv) (hseq : s.busy = false → s.seq = []) : s.BlockInv where
  encoder := h.encoder
  record := recordInv_of_none h.fcode (fun hp => by have hl := h.live; rw [hp] at hl; cases hl) h.exitCode h.badchar
  sequencer := ⟨fun _ => h.live, hseq⟩

/-! ### The encoder's steps -/

theorem bits_or {n : Nat} (lo len : Nat) (x y : BitVec n) : bits lo len (x ||| y) = bits lo len x ||| bits lo len y :=
  BitVec.extractLsb'_or

/-- An OR into a slot leaves bits 6:4 of every slot 0, if it sets none of them (10_state R21). -/
theorem State.EncoderInv.zero_bits_set {s : State} (h : s.EncoderInv) {k : Nat} (hk : k < 8) {x : Byte} (hx : bits 4 3 x = 0)
    (i : Fin 8) : bits 4 3 (s.frame.set k (s.frame[k] ||| x))[i] = 0 := by
  rw [Fin.getElem_fin, Vector.getElem_set]
  split
  · have hold : bits 4 3 s.frame[k] = 0 := h.zero_bits ⟨k, hk⟩
    rw [bits_or, hold, hx]
    rfl
  · exact h.zero_bits i

/-- A digit goes into the slot at the cursor, and the next slot is still empty (41_encoder R142, R146). -/
theorem State.EncoderInv.encodeDigit {s : State} (h : s.EncoderInv) (hk : s.cur.toNat < 8) (code : BitVec 4) :
    State.EncoderInv { s with
      frame := s.frame.set s.cur.toNat (s.frame[s.cur.toNat] ||| code.zeroExtend 8)
      cur := s.cur + 1 } := by
  have hcode : bits 4 3 (code.zeroExtend 8) = 0 := by
    revert code
    decide
  have hcur : (s.cur + 1).toNat = s.cur.toNat + 1 := by bv_omega
  have habove (i : Fin 8) (hi : s.cur.toNat < i.val) :
      (s.frame.set s.cur.toNat (s.frame[s.cur.toNat] ||| code.zeroExtend 8))[i] = 0 := by
    rw [Fin.getElem_fin, Vector.getElem_set_ne hk i.isLt hi.ne]
    exact h.above_cur i hi
  refine ⟨?_, h.zero_bits_set hk hcode, fun i hi => habove i ?_, fun i hi => .inl (habove i ?_)⟩ <;>
    simp only [hcur] at * <;> omega

/-- A point marks the slot at the cursor, which holds no digit yet (41_encoder R143, R146). -/
theorem State.EncoderInv.encodeDp {s : State} (h : s.EncoderInv) (hk : s.cur.toNat < 8) :
    State.EncoderInv { s with frame := s.frame.set s.cur.toNat (s.frame[s.cur.toNat] ||| 0x80#8) } where
  cur_le := h.cur_le
  zero_bits := h.zero_bits_set hk rfl
  above_cur i hi := by
    rw [Fin.getElem_fin, Vector.getElem_set_ne hk i.isLt (Nat.ne_of_lt hi)]
    exact h.above_cur i hi
  at_cur i hi := by
    have hold : s.frame[s.cur.toNat] = 0x00 ∨ s.frame[s.cur.toNat] = 0x80 := h.at_cur ⟨s.cur.toNat, hk⟩ rfl
    have hi : s.cur.toNat = i.val := hi.symm
    rw [Fin.getElem_fin, Vector.getElem_set, if_pos hi]
    obtain hold | hold := hold <;> rw [hold] <;> exact .inr rfl

/-- The empty frame (41_encoder R140). -/
theorem State.EncoderInv.clearFrame (s : State) : State.EncoderInv { s with frame := Vector.replicate 8 0, cur := 0 } :=
  reset_encoderInv.of_eq rfl rfl

/-! ### Micro-operations and commands -/

/-- A fault in a live phase records itself, with BADCHAR 0 unless it is BAD_CHAR (60_exceptions R176). -/
theorem State.LiveInv.raise {s : State} (h : s.LiveInv) (c : FaultCode) (x : Byte) : (s.raise c x).BlockInv where
  encoder := h.encoder.of_eq rfl rfl
  record := ⟨rfl, rfl, fun hc => by rw [raise_badchar, if_neg hc, h.badchar]⟩
  sequencer := ⟨nofun, fun _ => rfl⟩

/-- HALT ends the run with EXIT 0 and no fault recorded (42_control R160). -/
theorem State.LiveInv.halt {s : State} (h : s.LiveInv) :
    State.BlockInv { s with exitCode := 0, phase := .halted, busy := false, seq := [] } where
  encoder := h.encoder.of_eq rfl rfl
  record := recordInv_of_none h.fcode nofun rfl h.badchar
  sequencer := ⟨nofun, fun _ => rfl⟩

/-- A micro-operation in a live phase goes on in a live phase, or it ends the run; the invariant holds then. -/
theorem State.LiveInv.run {s : State} (h : s.LiveInv) (m : Micro) :
    (∃ t, m.run s = .go t ∧ t.LiveInv) ∨ ∃ t, m.run s = .stop t ∧ t.idle.BlockInv := by
  cases m with
  | write l b => exact .inl ⟨_, rfl, h.of_view rfl h.live⟩
  | cfgOut l => exact .inl ⟨_, rfl, h.of_view rfl h.live⟩
  | markObservation => exact .inl ⟨_, rfl, h.of_view rfl h.live⟩
  | enterConfigured => exact .inl ⟨_, rfl, h.of_view rfl rfl⟩
  | enterSent => exact .inl ⟨_, rfl, h.of_view rfl rfl⟩
  | clearFrame => exact .inl ⟨_, rfl, .clearFrame s, h.live, h.fcode, h.exitCode, h.badchar⟩
  | halt => exact .inr ⟨_, rfl, h.halt⟩
  | raise c x => exact .inr ⟨_, rfl, h.raise c x⟩
  | encodeDigit code =>
    simp only [Micro.run, State.encodeDigit]
    split
    · next hk => exact .inl ⟨_, rfl, h.encoder.encodeDigit hk code, h.live, h.fcode, h.exitCode, h.badchar⟩
    · exact .inr ⟨_, rfl, h.raise .tooLong 0⟩
  | encodeDp =>
    simp only [Micro.run, State.encodeDp]
    split
    · next hk => exact .inl ⟨_, rfl, h.encoder.encodeDp hk, h.live, h.fcode, h.exitCode, h.badchar⟩
    · exact .inr ⟨_, rfl, h.raise .dpOverflow 0⟩
  | platformSetup =>
    have ht : State.LiveInv { s with trace := s.trace ++ [.plat s.platOk] } := h.of_view rfl h.live
    simp only [Micro.run, State.platformSetup]
    split
    · exact .inl ⟨_, rfl, ht⟩
    · exact .inr ⟨_, rfl, ht.raise .platform 0⟩
  | readLoad =>
    have ht : State.LiveInv { s with trace := s.trace ++ [.rd s.loadI] } := h.of_view rfl h.live
    simp only [Micro.run, State.readLoad]
    split
    · exact .inl ⟨_, rfl, ht⟩
    · exact .inr ⟨_, rfl, ht.raise .loadback 0⟩

theorem State.LiveInv.goAll {s t : State} {ops : List Micro} (h : s.LiveInv) (hgo : goAll ops s = some t) : t.LiveInv := by
  induction ops generalizing s with
  | nil => cases hgo; exact h
  | cons m ms ih =>
    obtain ⟨u, hu, hms⟩ := goAll_cons hgo
    obtain ⟨v, hv, hlive⟩ | ⟨v, hv, -⟩ := h.run m <;> cases hu.symm.trans hv
    exact ih hlive hms

/-- A command run to its end keeps the invariant, by completing or in a run that is over. -/
theorem State.LiveInv.complete {s : State} (h : s.LiveInv) (ops : List Micro) : (complete ops s).BlockInv := by
  induction ops generalizing s with
  | nil => exact (h.of_view (t := s.idle) rfl h.live).blockInv fun _ => rfl
  | cons m ms ih =>
    obtain ⟨t, hm, ht⟩ | ⟨t, hm, ht⟩ := h.run m
    · rw [Machine.complete, runOps_go hm]
      exact ih ht
    · rwa [complete_stop hm]

/-- Some micro-operations of a command, and its end if it comes among them, keep the invariant. -/
theorem State.LiveInv.runCommand {s : State} (h : s.LiveInv) (k : Nat) (ops : List Micro) :
    (s.runCommand k ops).BlockInv := by
  have hrun : (runFor k ops s).BlockInv := by
    obtain ⟨v, hv, hr⟩ | hr := runFor_cases k ops s <;> rw [hr]
    · have hlive := h.goAll hv
      exact (hlive.of_view (t := { v with busy := true, seq := ops.drop k }) rfl hlive.live).blockInv nofun
    · exact h.complete ops
  exact hrun.of_view (by simp [State.recordView, State.runCommand]) (countEnded_phase _) (countEnded_busy _)
    (countEnded_seq _)

/-! ### Every step -/

theorem State.BlockInv.finish {s : State} (h : s.BlockInv) : s.finish.BlockInv := by
  cases hb : s.busy with
  | false => rwa [finish_of_not_busy hb]
  | true =>
    rw [finish_of_busy hb]
    exact ((h.liveInv (h.sequencer.1 hb)).complete s.seq).of_view rfl rfl rfl rfl

theorem State.BlockInv.continueCommand {s : State} (h : s.BlockInv) (k : Nat) : (s.continueCommand k).BlockInv := by
  cases hb : s.busy with
  | false => rwa [continueCommand_of_not_busy hb]
  | true =>
    rw [continueCommand_of_busy hb]
    exact (h.liveInv (h.sequencer.1 hb)).runCommand k s.seq

theorem State.BlockInv.declineOffer {s : State} (h : s.BlockInv) (rest : List Input) : (s.declineOffer rest).BlockInv := by
  unfold State.declineOffer
  split
  · exact h.finish
  · exact h.of_view rfl rfl rfl rfl

/-- A command is accepted in a live phase only (42_control R163). -/
theorem State.BlockInv.accepted {s : State} (h : s.BlockInv) (ha : s.accepts = true) (rest : List Input) (k : Nat)
    (ops : List Micro) : ((s.accept rest).runCommand k ops).BlockInv := by
  obtain ⟨-, hl⟩ := accepts_eq_true.mp ha
  exact ((h.liveInv hl).of_view (t := s.accept rest) rfl hl).runCommand k ops

theorem State.BlockInv.beginCommand {s : State} (h : s.BlockInv) (w : Word) (k : Nat) (rest : List Input) :
    (beginCommand w k rest s).BlockInv := by
  cases ha : s.accepts with
  | true =>
    rw [beginCommand_accepted rest ha]
    exact h.accepted ha rest k _
  | false =>
    rw [beginCommand_declined rest ha]
    exact h.declineOffer rest

theorem State.BlockInv.offer {s t : State} (h : s.BlockInv) {p : Packet} (hp : ∀ w, p ≠ .wire16 w) {rest : List Input}
    (ht : offer p rest s = .next t) : t.BlockInv := by
  cases ha : s.accepts with
  | true =>
    obtain ⟨ops, ho⟩ := offer_accepted ha hp rest
    cases ho.symm.trans ht
    exact h.accepted ha rest _ ops
  | false =>
    cases (offer_declined rest ha p).symm.trans ht
    exact h.declineOffer rest

/-- Settles O51, by the head of the schedule: an offer, a `run` or the end of the schedule runs micro-operations in a live phase,
RESET leads to the reset values, and the other inputs do not reach the block. -/
theorem everyStepKeepsTheBlockInvariant : Obligations.EveryStepKeepsTheBlockInvariant := by
  intro s t h ht
  cases hi : s.inputs with
  | nil =>
    simp only [step, hi] at ht
    cases ht
    exact h.finish
  | cons x rest =>
    cases x <;> simp only [step, hi] at ht
    case cmd w => exact h.offer (by simp) ht
    case char c => exact h.offer (by simp) ht
    case begin w k =>
      cases ht
      exact h.beginCommand w k rest
    case run k =>
      cases ht
      exact (h.of_view (t := { s with inputs := rest }) rfl rfl rfl rfl).continueCommand k
    case plat b =>
      cases ht
      exact h.of_view rfl rfl rfl rfl
    case loadIn b =>
      cases ht
      exact h.of_view rfl rfl rfl rfl
    case pad l b =>
      obtain ⟨rx, rfl⟩ := padInput_next ht
      exact h.of_view rfl rfl rfl rfl
    case reset d =>
      cases ht
      exact reset_blockInv.of_view rfl rfl rfl rfl

end Sys2Proof.Machine
end

section
/-! SUPPORT. The proofs about the encoder (41_encoder R140 to R147): ENC_CLEAR, ENC_CHAR and the character rows in each case of the
scan, and what a string leaves in the frame. -/

namespace Sys2Proof.Machine

/-! ### ENC_CLEAR -/

/-- After INIT the commands of the encoder raise SEQUENCE (42_control R161). -/
theorem complete_encoding_after_init {s : State} (hp : s.phase = .configured ∨ s.phase = .sent) (ops : List Micro) :
    complete (phaseCheck .encoding s ops) s = s.faultedWith .sequence 1 s.badchar := by
  rw [phaseCheck_encoding_after_init hp]
  rfl

/-- Settles O20: in ENCODE the body runs, after INIT the phase check raises, and the reserved bits tell the word from an illegal
one. -/
theorem encClearEmptiesTheFrame : Obligations.EncClearEmptiesTheFrame := by
  refine ⟨fun s hp => ?_, fun _ hp => congrArg Host.Outcome.next (complete_encoding_after_init hp _),
    fun _ hop => decode_or_raises (decodeCmd_op1 hop)⟩
  rw [exec, execEncClear, encClearOps, phaseCheck_encode hp]
  rfl

/-! ### The character rows -/

/-- Settles O26: ENC_CHAR and the row run the same micro-operations, since the ROM and the character rows agree. -/
theorem encCharActsAsItsCharacterRow : Obligations.EncCharActsAsItsCharacterRow := fun c s =>
  calc exec (.encChar c) s
    _ = .next (complete (encCharOps c s) s) := rfl
    _ = .next (complete (opsOf (decodeChar c) s) s) := by rw [opsOf_decodeChar]
    _ = exec (decodeChar c) s := (exec_of_blockRuns (blockRuns_decodeChar c) s).symm

/-- '.' acts as its row does (30_encoding R92). -/
theorem exec_charDot (s : State) : exec .charDot s = exec (.encChar 0x2E) s :=
  (encCharActsAsItsCharacterRow 0x2E s).symm

/-- Each DIGIT row is the row of a digit-producing character, with that character's code (30_encoding R90, R91). -/
theorem char_of_mem_digitRows : ∀ r ∈ digitRows,
    ∃ c ∈ validChars, isDigitChar c = true ∧ codeOf c = r.2.zeroExtend 8 ∧ decodeChar c = r.1 := by
  decide

/-- A DIGIT row acts as ENC_CHAR of its character does (30_encoding R89 to R91). -/
theorem exec_of_mem_digitRows {r : Instr × BitVec 4} (h : r ∈ digitRows) :
    ∃ c, isDigitChar c = true ∧ codeOf c = r.2.zeroExtend 8 ∧ ∀ s, exec r.1 s = exec (.encChar c) s := by
  obtain ⟨c, -, hc, hcode, hrow⟩ := char_of_mem_digitRows r h
  exact ⟨c, hc, hcode, fun s => hrow ▸ (encCharActsAsItsCharacterRow c s).symm⟩

/-! ### A character and a free slot -/

/-- Settles O21: the ROM's class selects the DIGIT case. -/
theorem encCharWritesADigit : Obligations.EncCharWritesADigit :=
  fun _ _ hk hp hc => exec_encChar_digit hp rfl hk hc

/-- Settles O22: each row acts as ENC_CHAR of its character. -/
theorem digitRowsWriteTheirCodes : Obligations.DigitRowsWriteTheirCodes := by
  intro s hk hp r hr
  obtain ⟨c, hc, hcode, hexec⟩ := exec_of_mem_digitRows hr
  rw [hexec, ← hcode]
  exact exec_encChar_digit hp rfl hk hc

/-- Settles O23: the ROM's class selects the DP case, and the row acts as ENC_CHAR does. -/
theorem dotMarksTheCurrentSlot : Obligations.DotMarksTheCurrentSlot := by
  intro s hk hp i hi
  have hdot := exec_encChar_dot hp rfl hk
  simp only [List.mem_cons, List.not_mem_nil, or_false] at hi
  obtain rfl | rfl := hi
  · exact hdot
  · rw [exec_charDot]
    exact hdot

/-! ### Characters that fault -/

section
variable {s : State} (hp : s.phase = .encode)
include hp

/-- The INVALID case raises BAD_CHAR with the character (41_encoder R144). -/
theorem complete_invalidOps (c : Byte) : complete (invalidOps c s) s = s.faultedWith .badChar 1 c := by
  rw [invalidOps, phaseCheck_encode hp]
  rfl

theorem exec_encChar_invalid {c : Byte} (hc : romClass (crom c) = 0) :
    exec (.encChar c) s = .next (s.faultedWith .badChar 1 c) := by
  have hops : encCharOps c s = invalidOps c s := by
    rw [encCharOps, hc]
    rfl
  rw [exec, execEncChar, hops, complete_invalidOps hp]

/-- A digit-producing character with no slot left raises TOO_LONG (41_encoder R142). -/
theorem exec_encChar_digit_full (hcur : s.cur = 8) {c : Byte} (hc : isDigitChar c = true) :
    exec (.encChar c) s = .next (s.faultedWith .tooLong 1 s.badchar) := by
  have hclass : romClass (crom c) = 1#2 := beq_iff_eq.mp hc
  have hfull : ¬ s.cur.toNat < 8 := by simp [hcur]
  rw [exec, execEncChar, encCharOps, if_pos hclass, digitOps, phaseCheck_encode hp, complete, runOps, Micro.run,
    State.encodeDigit, dif_neg hfull]
  rfl

/-- '.' with no slot left raises DP_OVERFLOW (41_encoder R143). -/
theorem exec_encChar_dot_full (hcur : s.cur = 8) :
    exec (.encChar 0x2E) s = .next (s.faultedWith .dpOverflow 1 s.badchar) := by
  have hops : encCharOps 0x2E s = dpOps s := rfl
  have hfull : ¬ s.cur.toNat < 8 := by simp [hcur]
  rw [exec, execEncChar, hops, dpOps, phaseCheck_encode hp, complete, runOps, Micro.run, State.encodeDp, dif_neg hfull]
  rfl

end

/-- Settles O24: the ROM's class selects the INVALID case, as the default row does, and none of the 21 valid characters is NUL, has
bit 7 or is another letter. -/
theorem invalidCharacterRaisesBadChar : Obligations.InvalidCharacterRaisesBadChar := by
  refine ⟨fun s c hp hc => exec_encChar_invalid hp hc, fun s c hp => congrArg Host.Outcome.next (complete_invalidOps hp c),
    fun c hother => ?_⟩
  have hvalid : ∀ c ∈ validChars, ¬ (c = 0 ∨ 0x80 ≤ c ∨
      ((0x41 ≤ c ∧ c ≤ 0x5A ∨ 0x61 ≤ c ∧ c ≤ 0x7A) ∧ c ∉ [0x45#8, 0x48, 0x4C, 0x50, 0x65, 0x68, 0x6C, 0x70])) := by
    decide
  rw [crom_of_not_valid fun hc => hvalid c hc hother]
  rfl

/-- Settles O25: the length check of each case comes first, and the rows act as ENC_CHAR of their characters. -/
theorem fullFrameRefusesCharacters : Obligations.FullFrameRefusesCharacters := by
  refine fun s hp hcur => ⟨fun c hc => exec_encChar_digit_full hp hcur hc, fun r hr => ?_, exec_encChar_dot_full hp hcur, ?_⟩
  · obtain ⟨c, hc, -, hexec⟩ := exec_of_mem_digitRows hr
    rw [hexec]
    exact exec_encChar_digit_full hp hcur hc
  · rw [exec_charDot]
    exact exec_encChar_dot_full hp hcur

/-! ### Strings the encoder takes -/

theorem withString_frame (cs : List Byte) (s : State) (k : Fin 8) : (s.withString cs).frame[k] = slotOf cs k.val := by
  simp [State.withString]

/-- Settles O29: ENCSTR leaves the slots of the string. -/
theorem pointedStringMarksItsSlots : Obligations.PointedStringMarksItsSlots :=
  fun cs s hp hcs => ⟨(s.withString cs).frame, runInstrs_encstr hp hcs, withString_frame cs s⟩

section
variable {cs : List Byte} (h : ∀ c ∈ cs, isDigitChar c = true)
include h

theorem digitsOf_of_digits : digitsOf cs = cs.reverse :=
  List.filter_eq_self.mpr fun c hc => h c (List.mem_reverse.mp hc)

/-- Without '.' no slot is marked. -/
theorem hasPoint_of_digits (k : Nat) : hasPoint cs k = false := by
  induction cs with
  | nil => rfl
  | cons c cs ih =>
    have hdot : c ≠ 0x2E := by
      rintro rfl
      exact absurd (h _ List.mem_cons_self) (by decide)
    rw [hasPoint_cons, ih fun c hc => h c (List.mem_cons_of_mem _ hc), beq_eq_false_iff_ne.mpr hdot]
    rfl

theorem encodable_of_digits (hl : cs.length ≤ 8) : encodable cs = true := by
  have hvalid : ∀ c ∈ cs, c ∈ validChars := fun c hc => mem_validChars_of_isDigitChar (h c hc)
  simpa [encodable, digitsOf_of_digits h, hasPoint_of_digits h, hl] using hvalid

/-- Slot `k` holds the code of the (k+1)-th character from the right, and 0 beyond them (41_encoder R147 (a)). -/
theorem slotOf_of_digits (k : Nat) :
    slotOf cs k = if hk : k < cs.length then codeOf (cs[cs.length - 1 - k]'(by omega)) else 0 := by
  have hslot : slotOf cs k = (cs.reverse[k]?.map codeOf).getD 0 := by
    rw [slotOf_eq, digitsOf_of_digits h, hasPoint_of_digits h]
    exact BitVec.or_zero
  rw [hslot]
  split
  · next hk =>
    rw [List.getElem?_reverse hk, List.getElem?_eq_getElem (by omega)]
    rfl
  · next hk =>
    rw [List.getElem?_eq_none (by simpa using hk)]
    rfl

end

/-- Settles O27: such a string is one the encoder takes, with every character a digit and no slot marked. -/
theorem stringEncodesRightToLeft : Obligations.StringEncodesRightToLeft := by
  intro cs s hp h hl
  have hrun := runInstrs_encstr hp (encodable_of_digits h hl)
  rw [State.withString, digitsOf_of_digits h, List.length_reverse] at hrun
  exact ⟨_, hrun, fun k => (withString_frame cs s k).trans (slotOf_of_digits h k)⟩

/-! ### Strings that fault -/

/-- A character at which the run ends: what stands to the left of it is not read (41_encoder R145). -/
theorem runInstrs_encstr_stops {pre suf : List Byte} {c : Byte} {s u t : State} (hu : runInstrs (encstr suf) s = u)
    (hlive : u.phase.live = true) (ht : exec (.encChar c) u = .next t) (hover : t.phase.live = false) :
    runInstrs (encstr (pre ++ c :: suf)) s = t := by
  have hsplit : encstr (pre ++ c :: suf) = encstr suf ++ .encChar c :: pre.reverse.map .encChar := by simp [encstr]
  rw [hsplit, runInstrs_append (hu ▸ hlive), hu, runInstrs_cons ht, hover, if_neg nofun]

/-- With 8 digit-producing characters to the right of it, one more ends the run and leaves their slots (41_encoder R147 (d)). -/
theorem runInstrs_encstr_tooLong {pre suf : List Byte} {c : Byte} {s : State} (hp : s.phase = .encode)
    (h : ∀ c ∈ suf, isDigitChar c = true) (hlen : suf.length = 8) (hc : isDigitChar c = true) :
    runInstrs (encstr (pre ++ c :: suf)) s =
      { s.faultedWith .tooLong 1 s.badchar with frame := (s.withString suf).frame, cur := 8 } := by
  have hcur : (s.withString suf).cur = 8 := by
    rw [State.withString, digitsOf_of_digits h, List.length_reverse, hlen]
    rfl
  have hlive : (s.withString suf).phase.live = true := by simp [State.withString, hp, Phase.live]
  rw [runInstrs_encstr_stops (runInstrs_encstr hp (encodable_of_digits h hlen.le)) hlive
    (exec_encChar_digit_full (s := s.withString suf) hp hcur hc) rfl, ← hcur]
  rfl

theorem exists_eq_append_of_length_ge {cs : List Byte} (h : 9 ≤ cs.length) :
    ∃ pre c suf, cs = pre ++ c :: suf ∧ suf.length = 8 := by
  refine ⟨cs.take (cs.length - 9), cs[cs.length - 9], cs.drop (cs.length - 9 + 1), ?_, ?_⟩
  · rw [← List.drop_eq_getElem_cons, List.take_append_drop]
  · rw [List.length_drop]
    omega

/-- Settles O28: the last 8 characters are a string the encoder takes and fill the frame, and the next from the right ends the
run. -/
theorem longStringRaisesTooLong : Obligations.LongStringRaisesTooLong := by
  intro cs s hp h hl
  obtain ⟨pre, c, suf, rfl, hlen⟩ := exists_eq_append_of_length_ge hl
  have hsuf : ∀ c ∈ suf, isDigitChar c = true := fun c hc => h c (by simp [hc])
  refine ⟨_, runInstrs_encstr_tooLong hp hsuf hlen (h c (by simp)), fun k => ?_⟩
  rw [withString_frame, slotOf_of_digits hsuf, dif_pos (by omega)]
  have hindex : (pre ++ c :: suf).length - 1 - k.val = pre.length + (suf.length - 1 - k.val + 1) := by
    simp only [List.length_append, List.length_cons]
    omega
  simp only [hindex, List.getElem_append_right (Nat.le_add_right ..), Nat.add_sub_cancel_left, List.getElem_cons_succ]

end Sys2Proof.Machine
end

section
/-! SUPPORT. The proofs about control (42_control R160 to R165): which offers a step runs and which it declines, where a step
stops, and what the phase check makes of a command. -/

namespace Sys2Proof.Machine

/-! ### Accepted offers -/

/-- A host unit decodes to a command or a character (30_encoding R82, R90 to R93). -/
theorem blockRuns_of_decode_host {p : Packet} (hp : ∀ w, p ≠ .wire16 w) {i : Instr} (hd : decode p = .ok i) :
    blockRuns i = true := by
  cases p with
  | cmd32 w => exact blockRuns_of_decode_cmd32 hd
  | char8 c =>
    cases hd
    exact blockRuns_decodeChar c
  | wire16 w => exact absurd rfl (hp w)

/-- An accepted offer of a host unit runs what the unit decodes to, and cp counts it (42_control R162, R163, 10_state R23). -/
theorem offer_runs_decoded {s : State} (ha : s.accepts = true) {p : Packet} (hp : ∀ w, p ≠ .wire16 w) {i : Instr}
    (hd : decode p = .ok i) (rest : List Input) :
    ∃ t, exec i (s.accept rest) = .next t ∧ offer p rest s = .next { t with cp := s.cp + 1 } := by
  have hexec := exec_of_blockRuns (blockRuns_of_decode_host hp hd) (s.accept rest)
  refine ⟨_, hexec, ?_⟩
  simp only [offer, if_pos ha, hd, hexec, countOutcome, countEnded_complete, accept_cp]

/-- Settles O7: both offers are of a host unit, which the block accepts here. -/
theorem stepRunsTheDecodedCommand : Obligations.StepRunsTheDecodedCommand := by
  intro s rest i hbusy hlive
  have ha := accepts_eq_true.mpr ⟨hbusy, hlive⟩
  refine ⟨fun w hi hd => ?_, fun c hi hd => ?_⟩ <;> rw [step, hi]
  · exact offer_runs_decoded ha (by simp) hd rest
  · exact offer_runs_decoded ha (by simp) hd rest

/-- Settles O9: the raise is a command of its own, and a word that a row selects runs as any accepted unit does. -/
theorem unselectedWordRaisesIllegalCmd : Obligations.UnselectedWordRaisesIllegalCmd := by
  intro s w rest hbusy hlive hi
  refine ⟨fun e hd => raisesIllegalCmd_of_error hd s rest hbusy hlive hi, fun i hd => ?_⟩
  obtain ⟨t, ht, hstep⟩ := (stepRunsTheDecodedCommand s rest i hbusy hlive).1 w hi hd
  exact ⟨t, _, ht, hstep, rfl⟩

/-! ### Declined offers -/

/-- A block that does not accept declines every form of an offer (42_control R161, R163). -/
theorem step_declines {s : State} (ha : s.accepts = false) {x : Input} {rest : List Input} (hi : s.inputs = x :: rest)
    (ho : s.offered.isSome = true) : step s = .next (s.declineOffer rest) := by
  rw [State.offered, hi] at ho
  rw [step, hi]
  cases x with
  | cmd w => exact offer_declined rest ha _
  | char c => exact offer_declined rest ha _
  | begin w k => exact congrArg Host.Outcome.next (beginCommand_declined rest ha w k)
  | run | plat | loadIn | pad | reset => cases ho

theorem complete_keeps_inputs (ops : List Micro) (s : State) : (complete ops s).inputs = s.inputs :=
  (congrArg State.inputs (complete_inputs ops s.inputs s) :)

/-- Settles O15: a busy block declines the offer by finishing its command, which leaves the schedule as it is. -/
theorem offerWaitsWhileBusy : Obligations.OfferWaitsWhileBusy := by
  intro s hbusy ho
  have ha : s.accepts = false := by simp [State.accepts, hbusy]
  obtain ⟨x, rest, hi⟩ : ∃ x rest, s.inputs = x :: rest := by
    refine List.exists_cons_of_ne_nil fun hnil => ?_
    simp [State.offered, hnil] at ho
  refine ⟨_, step_declines ha hi ho, ?_, ?_, ?_⟩ <;> rw [State.declineOffer, if_pos hbusy]
  · exact finish_of_busy hbusy
  · exact finish_busy s
  · rw [finish_of_busy hbusy]
    exact complete_keeps_inputs s.seq s

/-! ### Where a step stops -/

/-- An offer is never stopped: commands fault into next states (60_exceptions R176). -/
theorem offer_next (p : Packet) (rest : List Input) (s : State) : ∃ t, offer p rest s = .next t := by
  unfold offer
  split
  · split
    · next i _ =>
      obtain ⟨t, ht⟩ := exec_next i (s.accept rest)
      exact ⟨t.countEnded, by rw [ht]; rfl⟩
    · exact ⟨_, rfl⟩
  · exact ⟨_, rfl⟩

theorem padInput_driven {l : Line} {s : State} (h : s.oe.get l = true) (b : Bool) (rest : List Input) :
    padInput l b rest s = .fault (.lineContention l) := by
  rw [padInput, if_pos h]

theorem padInput_undriven {l : Line} {s : State} (h : s.oe.get l = false) (b : Bool) (rest : List Input) :
    ∃ t, padInput l b rest s = .next t := by
  rw [padInput, if_neg (by simp [h])]
  split
  · split
    · exact exec_next _ _
    · exact ⟨_, rfl⟩
  · exact ⟨_, rfl⟩

/-- A step goes on, or stops at a level on a pad that the block drives (42_control R164). -/
theorem step_cases (s : State) :
    (∃ t, step s = .next t) ∨
    ∃ l b rest, s.inputs = .pad l b :: rest ∧ s.oe.get l = true ∧ step s = .fault (.lineContention l) := by
  cases hi : s.inputs with
  | nil => exact .inl ⟨_, by rw [step, hi]⟩
  | cons x rest =>
    rw [step, hi]
    cases x with
    | cmd w => exact .inl (offer_next _ rest s)
    | char c => exact .inl (offer_next _ rest s)
    | pad l b =>
      cases hoe : s.oe.get l with
      | false => exact .inl (padInput_undriven hoe b rest)
      | true => exact .inr ⟨l, b, rest, rfl, hoe, padInput_driven hoe b rest⟩
    | begin | run | plat | loadIn | reset => exact .inl ⟨_, rfl⟩

/-- Settles O12: the one stop of a step is that of `padInput`. -/
theorem stepStopsOnlyOnLineContention : Obligations.StepStopsOnlyOnLineContention := by
  intro s
  refine ⟨fun r => ⟨fun h => ?_, ?_⟩, fun r h => ?_⟩
  · obtain ⟨t, ht⟩ | ⟨l, b, rest, hi, hoe, hstop⟩ := step_cases s
    · cases ht.symm.trans h
    · cases hstop.symm.trans h
      exact ⟨l, b, rest, hi, hoe, rfl⟩
  · rintro ⟨l, b, rest, hi, hoe, rfl⟩
    rw [step, hi]
    exact padInput_driven hoe b rest
  · obtain ⟨t, ht⟩ | ⟨l, b, rest, -, -, hstop⟩ := step_cases s
    · cases ht.symm.trans h
    · cases hstop.symm.trans h

/-! ### The phase check of each instruction -/

/-- Where the phase check lets an instruction of the block run (42_control R161). -/
def needOf : Instr → Need
  | .shift16 _ => .configured
  | .txn _ _ => .configured
  | .frameOut => .configured
  | .halt => .live
  | _ => .encoding

/-- Every instruction of the block checks its phase before anything else (42_control R161). -/
theorem opsOf_eq_phaseCheck {i : Instr} (h : blockRuns i = true) (s : State) :
    ∃ ops, opsOf i s = phaseCheck (needOf i) s ops := by
  cases i with
  | encChar c =>
    obtain ⟨m, -, ho⟩ := encCharOps_single c s
    exact ⟨[m], ho⟩
  | wireNoop | wireDigit0 | wireDigit1 | wireDigit2 | wireDigit3 | wireDigit4 | wireDigit5 | wireDigit6 | wireDigit7
  | wireDecodeMode | wireIntensity | wireScanLimit | wireShutdown | wireDisplayTest => cases h
  | _ => exact ⟨_, rfl⟩

/-- An instruction of the block is its checked micro-operations, run as one command (10_state R24). -/
theorem exec_eq_phaseCheck {i : Instr} (h : blockRuns i = true) (s : State) :
    ∃ ops, exec i s = .next (complete (phaseCheck (needOf i) s ops) s) := by
  obtain ⟨ops, ho⟩ := opsOf_eq_phaseCheck h s
  exact ⟨ops, by rw [exec_of_blockRuns h, ho]⟩

/-- When the run is over the phase check leaves nothing to run (42_control R161). -/
theorem phaseCheck_over {s : State} (h : s.phase.live = false) (need : Need) (ops : List Micro) :
    phaseCheck need s ops = [] := by
  obtain ⟨-, he⟩ | ⟨hlive, -⟩ := phaseCheck_cases need s ops
  · exact he
  · cases hlive.symm.trans h

theorem idle_of_isIdle {s : State} (h : s.isIdle) : s.idle = s := by
  obtain ⟨hbusy, hseq⟩ := h
  rw [State.idle, ← hbusy, ← hseq]

/-- When the run is over an instruction of the block is no step (42_control R161, R165). -/
theorem exec_over {s : State} (h : s.phase.live = false) (hidle : s.isIdle) {i : Instr} (hi : blockRuns i = true) :
    exec i s = .next s := by
  obtain ⟨ops, he⟩ := exec_eq_phaseCheck hi s
  rw [he, phaseCheck_over h, complete_nil, idle_of_isIdle hidle]

/-- Settles O16: the phase check leaves commands nothing to run, and a block that is not live declines every offer. -/
theorem runOverAcceptsNothing : Obligations.RunOverAcceptsNothing := by
  intro s hover hbusy hseq
  refine ⟨fun i => exec_over hover ⟨hbusy, hseq⟩, fun x rest hi ho => ?_⟩
  rw [step_declines (by simp [State.accepts, hover]) hi ho, State.declineOffer, if_neg (by simp [hbusy])]

/-- Settles O41: HALT needs a live phase and nothing else, and the reserved bits tell its word from an illegal one. -/
theorem haltEndsTheRun : Obligations.HaltEndsTheRun :=
  ⟨fun _ hlive => exec_halt hlive, fun _ hover hbusy hseq => exec_over hover ⟨hbusy, hseq⟩ rfl,
    fun _ hop => decode_or_raises (decodeCmd_op7 hop)⟩

/-- An instruction that needs ENCODE raises SEQUENCE after INIT (42_control R161). -/
theorem exec_encoding_after_init {i : Instr} (hi : blockRuns i = true) (hneed : needOf i = .encoding) {s : State}
    (hp : s.phase = .configured ∨ s.phase = .sent) : exec i s = .next (s.faultedWith .sequence 1 s.badchar) := by
  obtain ⟨ops, he⟩ := exec_eq_phaseCheck hi s
  rw [he, hneed, complete_encoding_after_init hp]

/-- An instruction that needs INIT raises SEQUENCE before it (42_control R161). -/
theorem exec_configured_before_init {i : Instr} (hi : blockRuns i = true) (hneed : needOf i = .configured) {s : State}
    (hp : s.phase = .encode) : exec i s = .next (s.faultedWith .sequence 1 s.badchar) := by
  obtain ⟨ops, he⟩ := exec_eq_phaseCheck hi s
  rw [he, hneed, complete_before_init hp]

/-- Settles O42, by what each instruction needs of the phase. -/
theorem outOfPhaseCommandRaisesSequence : Obligations.OutOfPhaseCommandRaisesSequence := by
  intro i s
  refine ⟨fun hp hi hframe hhalt hshift htxn => exec_encoding_after_init hi ?_ hp, fun hp hi => ?_⟩
  · cases i with
    | shift16 v => exact absurd rfl (hshift v)
    | txn a d => exact absurd rfl (htxn a d)
    | frameOut => exact absurd rfl hframe
    | halt => exact absurd rfl hhalt
    | _ => rfl
  · obtain rfl | ⟨v, rfl⟩ | ⟨a, d, rfl⟩ := hi <;> exact exec_configured_before_init rfl rfl hp

/-! ### Placed units -/

/-- What the decoder reads from a table word is what it reads from the word's unit (30_encoding R80). -/
theorem packetOf_of_decodeTableWord {nbits w : Nat} {i : Instr} (h : decodeTableWord nbits w = some i) :
    ∃ p, packetOf nbits w = some p ∧ decode p = .ok i := by
  unfold decodeTableWord at h
  split at h
  · next p hp =>
    refine ⟨p, hp, ?_⟩
    cases hd : decode p with
    | ok j =>
      rw [hd] at h
      cases h
      rfl
    | error e =>
      rw [hd] at h
      cases h
  · cases h

/-- A unit is a wire word exactly if it has 16 bits (30_encoding R80). -/
theorem packetOf_wire16_iff {nbits w : Nat} {p : Packet} (h : packetOf nbits w = some p) :
    nbits = 16 ↔ ∃ v, p = .wire16 v := by
  unfold packetOf at h
  split at h <;> cases h <;> simp

/-- A block that is idle in a live phase, the present one where that is live, with `x` next in its schedule (log 17). -/
def State.withOffer (s : State) (x : Input) : State :=
  { s.idle with phase := if s.phase.live then s.phase else .encode, inputs := x :: s.inputs }

theorem withOffer_live (s : State) (x : Input) : (s.withOffer x).phase.live = true := by
  rw [State.withOffer]
  cases h : s.phase <;> rfl

theorem withOffer_phase {s : State} (h : s.phase.live = true) (x : Input) : (s.withOffer x).phase = s.phase :=
  if_pos h

theorem withOffer_accepts (s : State) (x : Input) : (s.withOffer x).accepts = true :=
  accepts_eq_true.mpr ⟨rfl, withOffer_live s x⟩

/-- A host unit is placed as the offer that the next step makes of it (log 17). -/
theorem withPacket_host {p : Packet} (hp : ∀ w, p ≠ .wire16 w) (s : State) :
    ∃ x, s.withPacket p = s.withOffer x ∧ step (s.withOffer x) = offer p s.inputs (s.withOffer x) := by
  cases p with
  | cmd32 w => exact ⟨.cmd w, rfl, rfl⟩
  | char8 c => exact ⟨.char c, rfl, rfl⟩
  | wire16 w => exact absurd rfl (hp w)

/-- Settles O11: a wire word is run by the LOAD rising edge placed with it, and a host unit by the offer it is placed as. -/
theorem placedUnitRunsNext : Obligations.PlacedUnitRunsNext := by
  intro s nbits w i h
  obtain ⟨p, hpacket, hd⟩ := packetOf_of_decodeTableWord h
  have hplaced : s.withFetchWord nbits w = s.withPacket p := by simp only [State.withFetchWord, hpacket]
  rw [hplaced]
  by_cases hn : nbits = 16
  · obtain ⟨v, rfl⟩ := (packetOf_wire16_iff hpacket).mp hn
    have hstep := step_pad_edge_named (s := s.withPacket (.wire16 v)) rfl rfl rfl hd
    obtain ⟨t, ht⟩ := exec_next i
      { s.withPacket (.wire16 v) with inputs := s.inputs, rx := { s.rx with sr := v, load := true } }
    exact ⟨_, t, t, ht, hstep.trans ht, rfl, rfl, rfl, rfl, rfl, rfl, rfl, rfl, fun _ => rfl, fun hne => absurd hn hne⟩
  · have hp : ∀ v, p ≠ .wire16 v := fun v hv => hn ((packetOf_wire16_iff hpacket).mpr ⟨v, hv⟩)
    obtain ⟨x, hx, hstep⟩ := withPacket_host hp s
    obtain ⟨t, ht, ho⟩ := offer_runs_decoded (withOffer_accepts s x) hp hd s.inputs
    rw [hx]
    exact ⟨_, t, _, ht, hstep.trans ho, rfl, rfl, rfl, rfl, rfl, rfl, rfl, rfl,
      fun hl => withOffer_phase (hl.resolve_right hn) x, fun _ => ⟨withOffer_live s x, rfl⟩⟩

end Sys2Proof.Machine
end

section
/-! SUPPORT. The proofs about faults (60_exceptions R171 to R177): their codes, what fault entry records, which error of a string is
raised, and what a run that is over still lets change. -/

namespace Sys2Proof.Machine

/-! ### Fault codes -/

/-- Settles O44: `FaultCode.code` and `FaultCode.exit` are the two columns. -/
theorem faultCodeTable : Obligations.FaultCodeTable := ⟨rfl, rfl⟩

/-! ### Fault entry -/

theorem raise_eq_faultedWith (s : State) (c : FaultCode) (info : Byte) :
    s.raise c info = s.faultedWith c c.exit (if c = .badChar then info else s.badchar) := rfl

/-- A micro-operation that ends the command: those before it took effect, and those after it do not (60_exceptions R176). -/
theorem complete_append_stop {ops : List Micro} {s t u : State} (hgo : goAll ops s = some t) {m : Micro} (hm : m.run t = .stop u)
    (ms : List Micro) : complete (ops ++ m :: ms) s = u.idle := by
  rw [complete_append hgo, complete_stop hm]

section
variable {s : State}

/-- PlatformSetup records its event, then its check raises (40_protocol R114 step 1). -/
theorem run_platformSetup_fails (h : s.platOk = false) :
    Micro.platformSetup.run s =
      .stop { s.faultedWith .platform 1 s.badchar with trace := s.trace ++ [.plat false] } := by
  rw [Micro.run, State.platformSetup, if_neg (by simp [h]), ← h]
  rfl

/-- LineRead records its event, then its check raises (40_protocol R114 step 3). -/
theorem run_readLoad_fails (h : s.loadI = false) :
    Micro.readLoad.run s = .stop { s.faultedWith .loadback 2 s.badchar with trace := s.trace ++ [.rd false] } := by
  rw [Micro.run, State.readLoad, if_neg (by simp [h]), ← h]
  rfl

/-- With no slot left the length check raises before the OR (41_encoder R142). -/
theorem run_encodeDigit_full (h : s.cur = 8) (code : BitVec 4) :
    (Micro.encodeDigit code).run s = .stop (s.faultedWith .tooLong 1 s.badchar) := by
  rw [Micro.run, State.encodeDigit, dif_neg (by simp [h])]
  rfl

/-- With no slot left the check raises before the OR (41_encoder R143). -/
theorem run_encodeDp_full (h : s.cur = 8) : Micro.encodeDp.run s = .stop (s.faultedWith .dpOverflow 1 s.badchar) := by
  rw [Micro.run, State.encodeDp, dif_neg (by simp [h])]
  rfl

end

/-- Settles O43: the raise, and each check that fails, is a micro-operation that ends the command, and line writes leave BADCHAR. -/
theorem faultEntryRecordsAndStops : Obligations.FaultEntryRecordsAndStops := by
  intro s c info
  refine ⟨raise_eq_faultedWith s c info, fun ops ms t hgo => ⟨?_, ?_, ?_, ?_, ?_, ?_⟩, fun ws ms => ?_⟩
  · rw [complete_append hgo, complete_raise, raise_eq_faultedWith]
  · exact fun m u hm => complete_append_stop hgo hm ms
  · exact fun h => complete_append_stop hgo (run_platformSetup_fails h) ms
  · exact fun h => complete_append_stop hgo (run_readLoad_fails h) ms
  · exact fun h code => complete_append_stop hgo (run_encodeDigit_full h code) ms
  · exact fun h => complete_append_stop hgo (run_encodeDp_full h) ms
  · have hwrites : runOps (writeOps ws) s = s.writes ws := by
      rw [← List.append_nil (writeOps ws), runOps_writes]
      rfl
    rw [complete, runOps_writes, hwrites]
    rfl

/-! ### Several errors in a string -/

/-- Settles O30: each of the three errors ends the run, so what stands to the left of it is not read. -/
theorem firstErrorFromTheRightIsRaised : Obligations.FirstErrorFromTheRightIsRaised := by
  intro pre suf c s u hu hp
  have hlive : u.phase.live = true := by rw [hp]; rfl
  refine ⟨fun hc => ?_, fun hc hcur => ?_, ?_⟩
  · exact runInstrs_encstr_stops hu hlive (exec_encChar_invalid hp hc) rfl
  · exact runInstrs_encstr_stops hu hlive (exec_encChar_digit_full hp hcur hc) rfl
  · rintro rfl hcur
    exact runInstrs_encstr_stops hu hlive (exec_encChar_dot_full hp hcur) rfl

/-! ### A run that is over -/

/-- When the run is over an offer is passed over (42_control R161). -/
theorem step_offer_over {s : State} (hover : s.phase.live = false) (hidle : s.isIdle) {x : Input} {rest : List Input}
    (hi : s.inputs = x :: rest) (ho : s.offered.isSome = true) : step s = .next { s with inputs := rest } := by
  obtain ⟨hbusy, hseq⟩ := hidle
  exact (runOverAcceptsNothing s hover hbusy hseq).2 x rest hi ho

/-- What a step other than RESET can change when the run is over, by the head of the schedule: there is no command to go on with,
offers are passed over, and the inputs of the environment do not reach the block (60_exceptions R177). -/
theorem step_over {s t : State} (hover : s.phase.live = false) (hidle : s.isIdle)
    (hreset : ∀ x rest, s.inputs = x :: rest → x.isReset = false) (ht : step s = .next t) :
    ∃ inputs platOk loadI rx, t = { s with inputs := inputs, platOk := platOk, loadI := loadI, rx := rx } := by
  have hoffer {x : Input} {rest : List Input} (hi : s.inputs = x :: rest) (ho : s.offered.isSome = true) :
      t = { s with inputs := rest } :=
    (Host.Outcome.next.inj ((step_offer_over hover hidle hi ho).symm.trans ht)).symm
  obtain ⟨hbusy, -⟩ := hidle
  cases hi : s.inputs with
  | nil =>
    rw [step, hi] at ht
    cases ht
    exact ⟨_, _, _, _, finish_of_not_busy hbusy⟩
  | cons x rest =>
    cases x with
    | cmd | char | begin => exact ⟨rest, _, _, _, hoffer hi (by rw [State.offered, hi]; rfl)⟩
    | run k =>
      rw [step, hi] at ht
      cases ht
      exact ⟨rest, _, _, _, continueCommand_of_not_busy (s := { s with inputs := rest }) hbusy k⟩
    | plat | loadIn =>
      rw [step, hi] at ht
      cases ht
      exact ⟨rest, _, _, _, rfl⟩
    | pad =>
      rw [step, hi] at ht
      obtain ⟨rx, rfl⟩ := padInput_next ht
      exact ⟨rest, _, _, rx, rfl⟩
    | reset => cases hreset _ rest hi

/-- Settles O17: a step that is no RESET changes no other field. -/
theorem runOverHoldsUntilReset : Obligations.RunOverHoldsUntilReset := by
  intro s t hover hbusy hseq hreset ht
  obtain ⟨inputs, platOk, loadI, rx, rfl⟩ := step_over hover ⟨hbusy, hseq⟩ hreset ht
  rfl

end Sys2Proof.Machine
end

section
/-! SUPPORT. The proofs about reset and hazards (70_reset R201, R207, R209): what INIT forgets of the receiver and the lines before
it, and that no other command in ENCODE touches them. -/

namespace Sys2Proof.Machine

/-! ### What INIT forgets -/

/-- What INIT latches is its observation, wherever that starts in RX_LOG (20_memory R62). -/
theorem observedWords_afterInit (s : State) (n m k : Byte) :
    (s.afterInit n m k).observedWords = [0x0000, 0x0B#8 ++ n, 0x09#8 ++ m, 0x0F00, 0x0A#8 ++ k, 0x0C01] := by
  have hobs : (s.afterInit n m k).observedWords = (s.afterInit n m k).rx.log.drop (s.rx.seeAll initLevels).log.length := rfl
  rw [hobs, afterInit_rx, List.drop_left]

/-- A register that transactions to different addresses write does not depend on the registers before them (20_memory R64). -/
theorem latchedRegs_forgets {ts : List (Byte × Byte)} (hnd : (ts.map Prod.fst).Nodup) {x : Nat} (hx : x < 256)
    (h : x ∈ ts.map fun t => t.1.toNat) (reg reg' : Vector Byte 256) :
    (latchedRegs reg ts)[x] = (latchedRegs reg' ts)[x] := by
  obtain ⟨⟨a, d⟩, ht, ha⟩ := List.mem_map.mp h
  rw [latchedRegs_of_mem hnd ht hx ha, latchedRegs_of_mem hnd ht hx ha]

/-- Settles O50: both runs end in `afterInit`, where the receiver's history is only in the part of RX_LOG before the observation
and in the registers that no configuration word addresses. -/
theorem initForgetsReceiverHistory : Obligations.InitForgetsReceiverHistory := by
  intro s r l n m k hp hn hk hplat hload
  refine ⟨_, _, exec_init hp hn hk hplat hload, exec_init (s := { s with rx := r, lv := l }) hp hn hk hplat hload, ?_, ?_, ?_⟩
  · simp only [State.afterInit]
  · rw [observedWords_afterInit, observedWords_afterInit]
  · simp only [afterInit_rx, true_and]
    intro x hx
    have haddr : x.val ∈ (initTransactions n m k).map fun t => t.1.toNat := by
      simp only [initTransactions, List.map_cons, List.map_nil, List.mem_cons] at hx ⊢
      tauto
    exact latchedRegs_forgets (nodup_init_addresses n m k) x.isLt haddr _ _

/-! ### Commands before INIT -/

/-- The trace, the lines and the receiver (70_reset R209). -/
def State.lineRecord (s : State) : List Event × Lines × Lines × Receiver := (s.trace, s.oe, s.lv, s.rx)

theorem Micro.OfEncoder.keeps_lineRecord {m : Micro} (h : m.OfEncoder) : m.Keeps State.lineRecord := by
  intro s
  cases h with
  | clearFrame | badChar => rfl
  | encodeDigit code =>
    simp only [Micro.run, State.encodeDigit]
    split <;> rfl
  | encodeDp =>
    simp only [Micro.run, State.encodeDp]
    split <;> rfl

/-- A command that needs ENCODE, if it is not INIT, is one step of the encoder (41_encoder R140, R141). -/
theorem opsOf_encoder {i : Instr} (hb : blockRuns i = true) (hneed : needOf i = .encoding) (hinit : ∀ n m k, i ≠ .init n m k)
    (s : State) : ∃ m : Micro, m.OfEncoder ∧ opsOf i s = phaseCheck .encoding s [m] := by
  cases i with
  | init n m k => exact absurd rfl (hinit n m k)
  | shift16 | txn | frameOut | halt => cases hneed
  | wireNoop | wireDigit0 | wireDigit1 | wireDigit2 | wireDigit3 | wireDigit4 | wireDigit5 | wireDigit6 | wireDigit7
  | wireDecodeMode | wireIntensity | wireScanLimit | wireShutdown | wireDisplayTest => cases hb
  | encClear => exact ⟨_, .clearFrame, rfl⟩
  | encChar c => exact encCharOps_single c s
  | charDot => exact ⟨_, .encodeDp, rfl⟩
  | charInvalid c => exact ⟨_, .badChar c, rfl⟩
  | _ => exact ⟨_, .encodeDigit _, rfl⟩

theorem eq_halt_of_needOf {i : Instr} (h : needOf i = .live) : i = .halt := by
  cases i <;> cases h
  rfl

/-- In ENCODE a command but INIT is a step of the encoder, the raise of SEQUENCE, or HALT (42_control R161). -/
theorem lineRecord_of_exec {i : Instr} {s t : State} (hp : s.phase = .encode) (hb : blockRuns i = true)
    (hinit : ∀ n m k, i ≠ .init n m k) (h : exec i s = .next t) : t.lineRecord = s.lineRecord := by
  cases hneed : needOf i with
  | encoding =>
    obtain ⟨m, hm, ho⟩ := opsOf_encoder hb hneed hinit s
    cases (exec_of_blockRuns hb s).symm.trans h
    rw [ho, phaseCheck_encode hp]
    refine runOps_keeps (f := State.lineRecord) (fun m' hm' => ?_) s
    exact List.mem_singleton.mp hm' ▸ hm.keeps_lineRecord
  | configured =>
    cases (exec_configured_before_init hb hneed hp).symm.trans h
    rfl
  | live =>
    obtain rfl := eq_halt_of_needOf hneed
    cases (exec_halt (by rw [hp, Phase.live])).symm.trans h
    rfl

/-- Settles O56: neither a step of the encoder, nor the raise of SEQUENCE, nor HALT writes one of the four. -/
theorem noLineEventBeforeInit : Obligations.NoLineEventBeforeInit := by
  intro i s t hp hb hinit h
  simpa only [State.lineRecord, Prod.mk.injEq] using lineRecord_of_exec hp hb hinit h

end Sys2Proof.Machine
end
